-- ==== Sys2Proof/Word.lean ====
section
/-! DEFINITION. The words of the part: a byte, a byte string and the 32-bit word of the digest function. -/

namespace Sys2Proof

/-- One byte, on the link, in the flash or in a record. -/
abbrev Byte := BitVec 8

/-- A byte string, first byte first. -/
abbrev Bytes := List Byte

/-- The 32-bit word of the digest function SHA-256 (00_scope.md, "Cryptographic conventions"). -/
abbrev Word32 := BitVec 32

end Sys2Proof
end

