-- ==== Sys2Proof/Syntax.lean ====
section
/-! DEFINITION. The commands of the part: one constructor for each row of spec/opcode_table.json, and the types of
their operands.

The table gives no operands. The operands here carry what the outside world, or an engine whose inside the manual does
not give, contributes to the event (log entry 1): the identity and payload bytes of a request frame, the bytes of another
frame, the bytes read from the flash, the level of BTN, the SoC's flash command, and which of two outcomes the manual
allows came about. -/

namespace Sys2Proof

/-- A SoC flash transaction's command with its address (R55). The classes are READ, PROGRAM, ERASE and OTHER; a status
read is an OTHER transaction that the flash busy mark depends on (R58). -/
inductive FlashCommand
  /-- READ of `length` bytes from SoC address `address`. -/
  | read (address length : Nat)
  /-- PROGRAM of the 256-byte aligned block holding `address`. -/
  | program (address : Nat)
  /-- ERASE of the aligned sector or block of `size` bytes holding `address`. -/
  | erase (address size : Nat)
  /-- ERASE of the whole device. -/
  | eraseDevice
  /-- OTHER: a status read. -/
  | status
  /-- OTHER: every other command. -/
  | other
  deriving DecidableEq, Repr

/-- The three sources of the pattern generator behind IND (R147). -/
inductive IndSource
  | reaction
  | presence
  | host
  deriving DecidableEq, Repr

/-- When a link transaction began, told at the rise of LINK_CS that ends it: how many changes of SOC_HOLD, the link state and the reply
came between its beginning and its end, and, where SOC_HOLD was asserted in it, how many of its bytes had been sent by then
(R167, R172, R175, log entry 10). -/
structure Began where
  changes : Nat
  beforeHold : Nat
  deriving DecidableEq, Repr

/-- A transaction that began in the state in which it ends. -/
def Began.now : Began := ⟨0, 0⟩

/-- A link transaction whose bytes LINK_DI brought, and when it began. -/
structure Transaction where
  bytes : Bytes
  began : Began
  deriving DecidableEq, Repr

/-- A poll: the number of bytes that the SoC clocks, and when it began. -/
structure Clocking where
  count : Nat
  began : Began
  deriving DecidableEq, Repr

/-- The commands: one constructor for each row of the table. -/
inductive Instr
  /-- POWER_ON (R190): VDD rises after power loss or brown-out; uptime starts at 0, persistent records are loaded, every volatile field takes its power-on value and the first start of measurement follows. -/
  | powerOn (landed : Bool)
  /-- BANK_SELECTION (R68): After pending store writes on the lifecycle, staged record, bank selector and RECOVERY_NEXT have completed, and the button is determined, the Boot Gate selects manufacture, recovery, trial, trial fallback or the active bank. -/
  | bankSelection
  /-- ATTACH_DEADLINE_EXPIRY (R79): The attach deadline runs out in RELEASED; this is a failed attempt, leading to an immediate restart for a trial, a hold dwell, or FAULT_HOLD at the third failure. -/
  | attachDeadlineExpiry
  /-- BOOT_COMPLETE_DEADLINE_EXPIRY (R79): The boot-complete deadline runs out in ATTACHED; this is a failed attempt handled as R79 gives, or the pending reboot is taken. -/
  | bootCompleteDeadlineExpiry
  /-- HOLD_DWELL_EXPIRY (R79): The 100 ms hold dwell runs out and the Boot Gate takes the start of measurement for the retry. -/
  | holdDwellExpiry
  /-- SOC_RESTART (R81): SOC_RESTART is sensed: no effect when held, a failed attempt or the pending reboot in RELEASED or ATTACHED, a start of measurement in RUNNING. -/
  | socRestart
  /-- REBOOT_TIMER_EXPIRY (R82): The 100 ms reboot timer runs out while a reboot is pending, and the Boot Gate takes the reboot with a start of measurement. -/
  | rebootTimerExpiry
  /-- SILENCE_WATCH_EXPIRY (R85): The silence watch runs out in RUNNING; the Boot Gate raises SILENCE, fires LINK_SILENCE and leaves the watch stopped. -/
  | silenceWatchExpiry
  /-- SCAN_TIMER_EXPIRY (R87): The scan timer expires; the Boot Gate sets the next expiry and starts a scan round, or raises the skip count if a round is in progress. -/
  | scanTimerExpiry
  /-- DE_BLOCK_ABSORBED (R45): The Digest Engine finishes absorbing one 64-byte block, updates the arbiter mark, may bring a context to FINISHED, and takes the next ready block. -/
  | deBlockAbsorbed
  /-- FR_BURST_START (R51): A ready burst of the job in progress is granted the Flash Port, after status reads if the flash busy mark is set. -/
  | frBurstStart
  /-- FR_BURST_COMPLETE (R51): A burst's bytes have been read; the Flash Reader gives them to the READER context, or the manifest buffer, lowers the remaining length and asks for finishing at the end. -/
  | frBurstComplete (bytes : Bytes)
  /-- SE_OPERATION_COMPLETE (R23): A SIGN or VERIFY operation completes; the signature goes to KEY SIGN or MAKE STATEMENT and the verdict to Image Acceptance. -/
  | seOperationComplete
  /-- KEY_MATERIAL_GENERATED (R18): Generation of a new pair or secret inside the part completes, and the creating store write is handed to the store. -/
  | keyMaterialGenerated
  /-- STORE_WRITE_START (R183): The store takes the next waiting write or update from its list in order of arrival. -/
  | storeWriteStart
  /-- STORE_WRITE_COMPLETE (R182): A write or update completes; every record named takes its new content together, and its writer readies its reply or goes on with its work. -/
  | storeWriteComplete
  /-- STORE_WRITE_FAILED (R183): The store reports a write or update failed; the records keep their old content, the writer raises STORE_FAULT and acts as its rule gives. -/
  | storeWriteFailed
  /-- VERIFICATION_DEADLINE_EXPIRY (R104): The verification deadline runs out and the staged record is rejected with TIMEOUT. -/
  | verificationDeadlineExpiry
  /-- SOC_FLASH_COMMAND (R55): A SoC flash transaction's command and address are received; the Flash Port classifies it, applies protection and remap, and waits, forwards, or answers it itself. -/
  | socFlashCommand (command : FlashCommand)
  /-- SOC_FLASH_FORWARD (R56): A waiting SoC transaction is granted the flash once the current burst ends, and is forwarded at the remapped address. -/
  | socFlashForward
  /-- SOC_FLASH_CS_RISE (R58): FT_CS rises and ends the SoC transaction; after a forwarded PROGRAM or ERASE the flash busy mark is set, and the port is freed for the next claim. -/
  | socFlashCsRise (ready : Bool)
  /-- LINK_TRANSACTION_IGNORED (R167): An empty, sync-only, or held-time link transaction is discarded with no reply and no change. -/
  | linkTransactionIgnored (received : Transaction)
  /-- BAD_FRAME (R170): A complete request frame fails the CRC, length or request-code check and is answered BAD_FRAME, BAD_LENGTH or UNKNOWN_REQUEST. -/
  | badFrame (frame : Bytes)
  /-- FRAME_TIMEOUT (R169): A request frame being read reaches its frame timeout; it is discarded, LINK_ERROR is raised and the bad-frame run rises. -/
  | frameTimeout (received : Bytes) (elapsed : Nat)
  /-- OVERRUN (R173): A request frame arriving while the link is SERVING is not read; the overrun counter and the OVERRUN flag are raised. -/
  | overrun (frame : Transaction)
  /-- POLL (R172): A poll returns EE, or sends the READY reply frame, which is taken when LINK_CS rises after its last byte. -/
  | poll (clocked : Clocking)
  /-- IDENTIFY (R179): Returns device type, lifecycle, serial, asking identity, admitted set, stage, Boot Gate state and claim state. -/
  | identify (identity : Byte) (payload : Bytes)
  /-- READ_ATTENTION (R177): Returns the set flags, alert mask, ALERT level, bad-frame run and overrun counter. -/
  | readAttention (identity : Byte) (payload : Bytes)
  /-- CLEAR_ATTENTION (R177): Clears the flags named in the mask and reconsiders ALERT. -/
  | clearAttention (identity : Byte) (payload : Bytes)
  /-- SET_ALERT_MASK (R178): Replaces the alert mask and reconsiders ALERT. -/
  | setAlertMask (identity : Byte) (payload : Bytes)
  /-- SET_PARAMETER (R180): Clamps and writes a Boot Gate or vault parameter, requiring the parameter's right, and returns the value taken. -/
  | setParameter (identity : Byte) (payload : Bytes)
  /-- READ_PARAMETER (R180): Returns the value held for a named parameter. -/
  | readParameter (identity : Byte) (payload : Bytes)
  /-- KEY_INFO (R11): Returns a slot's fields apart from its key material. -/
  | keyInfo (identity : Byte) (payload : Bytes)
  /-- KEY_GENERATE (R18): Creates a SIGNING_PAIR or SECRET slot with key material made inside the part. -/
  | keyGenerate (identity : Byte) (payload : Bytes)
  /-- KEY_IMPORT (R19): Creates a slot from a plain public key or from a wrapped key unwrapped by a SECRET slot, counting the unwrap. -/
  | keyImport (identity : Byte) (payload : Bytes)
  /-- KEY_EXPORT_PUBLIC (R12): Returns the 64-byte public key of a pair or public-key slot. -/
  | keyExportPublic (identity : Byte) (payload : Bytes)
  /-- KEY_SIGN (R14): Checks the slot, digests DATA if needed and places a SIGN operation for the slot's private key. -/
  | keySign (identity : Byte) (payload : Bytes)
  /-- KEY_DERIVE (R16): Returns the keyed digest of a context under a SECRET slot and counts the use. -/
  | keyDerive (identity : Byte) (payload : Bytes)
  /-- KEY_RESTRICT (R21): Narrows a slot's policy and may retire it. -/
  | keyRestrict (identity : Byte) (payload : Bytes)
  /-- KEY_RETIRE (R22): Makes an ACTIVE slot RETIRED, discarding private material. -/
  | keyRetire (identity : Byte) (payload : Bytes)
  /-- KEY_ERASE (R22): Makes a slot EMPTY and frees its label. -/
  | keyErase (identity : Byte) (payload : Bytes)
  /-- BLOB_WRITE (R20): Creates a BLOB slot with its first chunk, or appends a later chunk. -/
  | blobWrite (identity : Byte) (payload : Bytes)
  /-- BLOB_READ (R13): Returns blob bytes from an offset. -/
  | blobRead (identity : Byte) (payload : Bytes)
  /-- EXTEND_DIGEST (R37): Extends an open chain by a carried digest and appends a REQUEST log entry. -/
  | extendDigest (identity : Byte) (payload : Bytes)
  /-- EXTEND_DATA (R38): Digests carried data in the LINK context, then extends an open chain by it and appends a log entry. -/
  | extendData (identity : Byte) (payload : Bytes)
  /-- READ_CHAINS (R40): Returns the stage, log entry count and values of the chains named. -/
  | readChains (identity : Byte) (payload : Bytes)
  /-- READ_LOG (R41): Returns up to 20 log entries from a starting sequence. -/
  | readLog (identity : Byte) (payload : Bytes)
  /-- ADVANCE_STAGE (R30): Raises the stage, appends a STAGE_MARK extending chain 1, and hands the stage to the Boot Gate. -/
  | advanceStage (identity : Byte) (payload : Bytes)
  /-- REQUESTER_WRITE (R27): Replaces one identity's record in the requester table. -/
  | requesterWrite (identity : Byte) (payload : Bytes)
  /-- REQUESTER_READ (R28): Returns the requester table, the stage and the admitted identities. -/
  | requesterRead (identity : Byte) (payload : Bytes)
  /-- MAKE_STATEMENT (R114): Checks the statement slot, assembles the body in one event and digests it for signing. -/
  | makeStatement (identity : Byte) (payload : Bytes)
  /-- VERIFY_STAGED (R97): Starts verification of the staged image by writing the staged record VERIFYING. -/
  | verifyStaged (identity : Byte) (payload : Bytes)
  /-- IMAGE_STATUS (R107): Returns the staged state, known fields, progress, verification, tries, active bank and violation counter. -/
  | imageStatus (identity : Byte) (payload : Bytes)
  /-- ABORT_IMAGE (R109): Stops a verification or discards the staged record, or returns ARMED to VERIFIED. -/
  | abortImage (identity : Byte) (payload : Bytes)
  /-- ARM_TRIAL (R110): Arms a verified line 0 image with 1..3 tries. -/
  | armTrial (identity : Byte) (payload : Bytes)
  /-- CONFIRM_IMAGE (R112): Confirms a trial or verified image, making the new bank active and raising its rollback counter in one update. -/
  | confirmImage (identity : Byte) (payload : Bytes)
  /-- REBOOT_ROUTER (R82): Sets reboot pending and starts the reboot timer, replying OK. -/
  | rebootRouter (identity : Byte) (payload : Bytes)
  /-- READ_COUNTERS (R108): Returns the rollback counters, active bank, golden set summaries and layout. -/
  | readCounters (identity : Byte) (payload : Bytes)
  /-- SCAN_STATUS (R89): Returns the scan timer, scan record, measurement verdict and selected bank. -/
  | scanStatus (identity : Byte) (payload : Bytes)
  /-- VAULT_STATUS (R130): Returns the vault record, the window and every present credential's metadata. -/
  | vaultStatus (identity : Byte) (payload : Bytes)
  /-- VAULT_CLAIM (R131): With presence, consumes the window and writes the vault CLAIMED with an owner tag. -/
  | vaultClaim (identity : Byte) (payload : Bytes)
  /-- CRED_ENROLL (R132): Creates an OWNER credential record in a claimed vault. -/
  | credEnroll (identity : Byte) (payload : Bytes)
  /-- CRED_CHECK (R134): Tests the penalty deadline, charges the attempt in a store write, then compares the candidate. -/
  | credCheck (identity : Byte) (payload : Bytes)
  /-- CRED_RETRIEVE (R139): Returns the value of a SECRET record. -/
  | credRetrieve (identity : Byte) (payload : Bytes)
  /-- CRED_CHANGE (R140): Changes a VERIFIER's passphrase with the old one or presence, or a SECRET's value. -/
  | credChange (identity : Byte) (payload : Bytes)
  /-- CRED_REMOVE (R142): Removes an OWNER credential record. -/
  | credRemove (identity : Byte) (payload : Bytes)
  /-- OWNER_RESET (R143): With presence, consumes the window and performs the owner reset update. -/
  | ownerReset (identity : Byte) (payload : Bytes)
  /-- OWNER_RESET_UPDATE (R144): Once the vault is free, the owner reset empties OWNER slots and records, restores factory credentials and unclaims the vault in one update. -/
  | ownerResetUpdate
  /-- DECAY_STEP (R136): A forgiveness interval passes with no charge; once the vault is free, the failure count is lowered by one in a store write. -/
  | decayStep (record : Nat)
  /-- SET_INDICATOR_PATTERN (R157): Gives the host source a pattern, taken at once or staged. -/
  | setIndicatorPattern (identity : Byte) (payload : Bytes)
  /-- SET_INDICATOR_CLEAR (R157): Clears the host source at once. -/
  | setIndicatorClear (identity : Byte) (payload : Bytes)
  /-- PRESENCE_STATUS (R151): Returns the window, seconds left, button, held time and shown source. -/
  | presenceStatus (identity : Byte) (payload : Bytes)
  /-- REACTION_READ (R164): Returns all eight reaction entries with marks and counts. -/
  | reactionRead (identity : Byte) (payload : Bytes)
  /-- REACTION_WRITE (R165): Replaces one reaction entry, clearing its mark and count. -/
  | reactionWrite (identity : Byte) (payload : Bytes)
  /-- PATTERN_WRITE (R166): Replaces one policy pattern, as taken. -/
  | patternWrite (identity : Byte) (payload : Bytes)
  /-- PROVISION_SLOT_GENERATE (R185): In MANUFACTURE, creates a FACTORY slot with key material made inside the part. -/
  | provisionSlotGenerate (identity : Byte) (payload : Bytes)
  /-- PROVISION_SLOT_PUBLIC (R185): In MANUFACTURE, creates a FACTORY VERIFY_PUBLIC slot from a public key. -/
  | provisionSlotPublic (identity : Byte) (payload : Bytes)
  /-- PROVISION_SLOT_BLOB (R185): In MANUFACTURE, builds a FACTORY BLOB slot chunk by chunk. -/
  | provisionSlotBlob (identity : Byte) (payload : Bytes)
  /-- PROVISION_SLOT_ERASE (R185): In MANUFACTURE, empties a FACTORY slot. -/
  | provisionSlotErase (identity : Byte) (payload : Bytes)
  /-- PROVISION_CREDENTIAL (R186): In MANUFACTURE, writes or replaces a FACTORY credential record. -/
  | provisionCredential (identity : Byte) (payload : Bytes)
  /-- PROVISION_LAYOUT (R187): In MANUFACTURE, writes the flash layout and invalidates both golden sets. -/
  | provisionLayout (identity : Byte) (payload : Bytes)
  /-- PROVISION_GOLDEN (R188): In MANUFACTURE, writes golden set A and sets rollback counter 0 to its epoch. -/
  | provisionGolden (identity : Byte) (payload : Bytes)
  /-- LOCK_FACTORY (R189): Moves the lifecycle from MANUFACTURE to FIELD once its preconditions hold. -/
  | lockFactory (identity : Byte) (payload : Bytes)
  /-- BTN_LEVEL_CHANGE (R148): BTN changes level and restarts the 30 ms debounce count. -/
  | btnLevelChange (pressed : Bool)
  /-- DEBOUNCED_PRESS (R148): BTN has held its pressed level for 30 ms; the debounced button becomes PRESSED and the press timer starts. -/
  | debouncedPress
  /-- DEBOUNCED_RELEASE (R148): BTN has held its released level for 30 ms; the press is timed and a press under 2 s is a short press. -/
  | debouncedRelease
  /-- BUTTON_HOLD (R148): A press has lasted 10 s; the BIU fires BUTTON_HOLD once and sets the hold mark. -/
  | buttonHold
  /-- PRESENCE_WINDOW_TIMEOUT (R150): The uptime reaches the window's closing time; the window closes and the presence source is cleared. -/
  | presenceWindowTimeout
  /-- PATTERN_PERIOD_END (R153): A source's period ends; it takes its staged pattern, repeats, counts down, or becomes absent, and IND's shown source is decided again. -/
  | patternPeriodEnd (source : IndSource)
  /-- POWER_LOSS (R190): VDD falls away or browns out below 2.7 V; volatile state is lost, a store write being made lands whole or not at all, and writes not yet started are lost. -/
  | powerLoss (landed : Bool)
  /-- ON_TIME_END (R154): The on-time of the shown source's current period runs out and IND goes dark for the rest of the period. -/
  | onTimeEnd
  deriving DecidableEq, Repr

end Sys2Proof
end

