-- ==== Sys2Proof/Decode.lean ====
section
/-! DEFINITION. Reading a command from a word by the table's bits: the table gives no row any bits, so no word spells a command
(log entry 27). -/

namespace Sys2Proof

/-- The command a word spells by the table's bits: none, since every row of the table has an empty list of fields. -/
def decodeTableWord (_nbits _w : Nat) : Option Instr := none

end Sys2Proof
end

