-- ==== Sys2Proof/Machine/Bytes.lean ====
section
/-! DEFINITION. Byte strings: little-endian numbers, sets held in a byte, and the CRC of the link. -/

namespace Sys2Proof.Machine

/-- A number as one byte. -/
def byteOf (n : Nat) : Byte := BitVec.ofNat 8 n

/-- A number as two bytes, least significant first (00_scope.md, "Conventions"). -/
def le16 (n : Nat) : Bytes := [byteOf n, byteOf (n / 256)]

/-- A number as four bytes, least significant first. -/
def le32 (n : Nat) : Bytes := le16 n ++ le16 (n / 65536)

/-- The number a byte string holds, least significant byte first. -/
def number (bytes : Bytes) : Nat := bytes.foldr (fun b n => b.toNat + 256 * n) 0

/-- A byte string followed by zero bytes up to a length. -/
def padTo (length : Nat) (bytes : Bytes) : Bytes := bytes ++ List.replicate (length - bytes.length) 0

/-- `count` bytes from an offset. -/
def slice (start count : Nat) (bytes : Bytes) : Bytes := (bytes.drop start).take count

/-- The coding of a yes/no field (chapter 10, Formats). -/
def yesNo (b : Bool) : Byte := if b then 1 else 0

/-- Whether a set held in a byte has a member (chapter 10, Formats). -/
def inSet (set : Byte) (member : Nat) : Bool := set.getLsbD member

/-- The members of a set held in a byte, in ascending order. -/
def members (set : Byte) : List Nat := (List.range 8).filter (inSet set)

/-- Whether every member of one set is in another. -/
def subset (small large : Byte) : Bool := small &&& ~~~large == 0

/-- Whether two sets have a member in common. -/
def meets (a b : Byte) : Bool := a &&& b != 0

/-- The quotient rounded up to a whole number; figures of time remaining are rounded up (R181). -/
def ceilDiv (n d : Nat) : Nat := (n + (d - 1)) / d

/-- One bit of the CRC-16 with polynomial 1021 (R168). -/
def crcBit (crc : BitVec 16) : BitVec 16 := if crc.msb then (crc <<< 1) ^^^ 0x1021#16 else crc <<< 1

/-- One byte of the CRC-16, most significant bit first (R168). -/
def crcByte (crc : BitVec 16) (b : Byte) : BitVec 16 :=
  let c := crc ^^^ (b.setWidth 16 <<< 8)
  crcBit (crcBit (crcBit (crcBit (crcBit (crcBit (crcBit (crcBit c)))))))

/-- The CRC-16 of a byte string, from the initial value FFFF (R168). -/
def crc16 (bytes : Bytes) : BitVec 16 := bytes.foldl crcByte 0xFFFF#16

/-- The CRC of a byte string as it is sent, low byte first (R168). -/
def crcBytes (bytes : Bytes) : Bytes := le16 (crc16 bytes).toNat

end Sys2Proof.Machine
end

