-- ==== Sys2Proof/Config.lean ====
section
/-! DEFINITION. What the manual leaves open: the free values of the model.

00_scope.md leaves the internal construction of the cryptographic algorithms and of the wrapping cipher out of the
manual, and says that the part depends on signatures and unwrapping only through whether they are valid. Each of
these functions is therefore a constant with no body (log entry 2). New key material and signatures are random: they are free values drawn with
the counter `State.draws` (log entry 3). -/

namespace Sys2Proof.Config

/-- Byte `index` of the `draw`-th piece of random material made inside the part (R18). Free value. -/
opaque randomByte (draw index : Nat) : Byte

/-- Byte `index` of the public key, x then y, of a P-256 private key (R1, R19). Free value. -/
opaque publicKeyByte (secretKey : Bytes) (index : Nat) : Byte

/-- Byte `index` of the signature made at the `draw`-th drawing, r then s (R23). A signature is not fixed by the
digest and the key (R119), so it depends on the drawing too. Free value. -/
opaque signatureByte (draw : Nat) (secretKey digest : Bytes) (index : Nat) : Byte

/-- Whether a 64-byte signature over a digest is valid under a 64-byte public key (R23, R100). Free value. -/
opaque signatureValid (publicKey digest signature : Bytes) : Bool

/-- Whether a 64-byte public key lies on the P-256 curve (R19, R185). Free value. -/
opaque pointOnCurve (publicKey : Bytes) : Bool

/-- Whether a byte string is a valid P-256 private key (R19). Free value. -/
opaque privateKeyValid (secretKey : Bytes) : Bool

/-- Unwrapping under a 32-byte secret: the wrapped key bytes, or nothing where it fails (R19). Free value. -/
opaque unwrapKey (secret wrapped : Bytes) : Option Bytes

/-- The 32 bytes of new key material of a drawing (R18). -/
def randomBytes (draw : Nat) : Bytes :=
  (List.range 32).map (randomByte draw)

/-- The 64-byte public key of a private key (R1). -/
def publicKeyOf (secretKey : Bytes) : Bytes :=
  (List.range 64).map (publicKeyByte secretKey)

/-- The 64-byte signature of a drawing (R23). -/
def signature (draw : Nat) (secretKey digest : Bytes) : Bytes :=
  (List.range 64).map (signatureByte draw secretKey digest)

end Sys2Proof.Config
end

