-- ==== Sys2Proof/Machine/State.lean ====
section
/-! DEFINITION. The state of the part as plain data, the outcomes of a command, and the state after reset.

INVENTORY.md lists every field with the rule that names it. A field that the manual makes absent in some case is an
`Option`, or belongs to the constructor of the case in which it is present. -/

namespace Sys2Proof.Machine

/-! ## Names of values -/

/-- The boot stage, in rising order (R29). -/
inductive Stage
  | loader | kernel | system | services
  deriving DecidableEq, Repr

/-- The provisioning state of the part (R184). -/
inductive Lifecycle
  | manufacture | field
  deriving DecidableEq, Repr

/-- One half of the boot area of the flash (R91). -/
inductive Bank
  | a | b
  deriving DecidableEq, Repr

/-- What a bank selection chooses (R64). -/
inductive BootBank
  | bank (bank : Bank)
  | recovery
  deriving DecidableEq, Repr

/-- Reply statuses (chapter 10, Formats). -/
inductive Status
  | ok | started | badFrame | badLength | unknownRequest | identityDisabled | stageClosed | notPermitted
  | slotSuspended | badArgument | busy | wrongState | slotEmpty | slotOccupied | labelTaken | bindingMismatch
  | chainReserved | logFull | noPresence | wait | noMatch | storeFault
  deriving DecidableEq, Repr

/-- The twelve attention flags, in bit order (R176). -/
inductive Flag
  | imageDone | scanMismatch | protectViolation | presenceOpen | ownerReset | reaction | linkError | overrun
  | bootNote | silence | penalty | storeFault
  deriving DecidableEq, Repr

/-- The requests of the request code table (chapter 10, Formats). -/
inductive Req
  | identify | readAttention | clearAttention | setAlertMask | setParameter | readParameter
  | keyInfo | keyGenerate | keyImport | keyExportPublic | keySign | keyDerive | keyRestrict | keyRetire | keyErase
  | blobWrite | blobRead
  | extendDigest | extendData | readChains | readLog | advanceStage | requesterWrite | requesterRead | makeStatement
  | verifyStaged | imageStatus | abortImage | armTrial | confirmImage | rebootRouter | readCounters | scanStatus
  | vaultStatus | vaultClaim | credEnroll | credCheck | credRetrieve | credChange | credRemove | ownerReset
  | setIndicator | presenceStatus | reactionRead | reactionWrite | patternWrite
  | provisionSlot | provisionCredential | provisionLayout | provisionGolden | lockFactory
  deriving DecidableEq, Repr

/-- The five parameters of the Boot Gate (R84). -/
inductive BootParam
  | attachLimit | completeLimit | silenceLimit | bootPolicy | scanPeriod
  deriving DecidableEq, Repr

/-- The four parameters of the vault (R138). -/
inductive VaultParam
  | free | base | cap | forgive
  deriving DecidableEq, Repr

/-- The named parameters of SET PARAMETER and READ PARAMETER (R180). -/
inductive Param
  | boot (param : BootParam)
  | vault (param : VaultParam)
  deriving DecidableEq, Repr

/-! ## Persistent records (R182) -/

/-- A set of chains with a 32-byte bound value: the binding of a slot (R8) or the seal of a credential (R126). -/
structure Binding where
  chains : Byte
  bound : Bytes
  deriving DecidableEq, Repr

/-- Who provisions and manages a slot (R1). -/
inductive SlotClass
  | factory | system | owner
  deriving DecidableEq, Repr

/-- What the key material of a slot is (R1). -/
inductive KeyKind
  | signingPair | verifyPublic | secret | blob
  deriving DecidableEq, Repr

/-- Whether a slot that is not EMPTY can be used (R5). -/
inductive KeyState
  | active | retired
  deriving DecidableEq, Repr

/-- The key material of a slot; its constructor is the slot's kind (R1). Retirement discards a private key or a secret and keeps the
rest (R5). -/
inductive KeyMaterial
  | pair (secretKey : Option Bytes) (publicKey : Bytes)
  | verifyPublic (publicKey : Bytes)
  | secret (key : Option Bytes)
  | blob (data : Bytes)
  deriving DecidableEq, Repr

/-- The persistent record of a slot that is not EMPTY (R1). Usage has one bit for each use and the answer set one bit for each
identity, as the link codes them (chapter 10, Formats). -/
structure KeySlot where
  slotClass : SlotClass
  state : KeyState
  label : Bytes
  usage : Byte
  answerSet : Byte
  binding : Option Binding
  useLimit : Option Nat
  useCount : Nat
  material : KeyMaterial
  deriving DecidableEq, Repr

/-- One identity's record of the requester table (R25). Rights: bit 0 ADMIN, bit 1 UPDATE, bit 2 OWNER. -/
structure Requester where
  enabled : Bool
  ceiling : Stage
  rights : Byte
  deriving DecidableEq, Repr

/-- What the Boot Gate does with a mismatch (R74, R84). -/
inductive BootPolicy
  | strict | audit
  deriving DecidableEq, Repr

/-- The parameters of the Boot Gate (R84). A SILENCE_LIMIT of 0 is OFF, a SCAN_PERIOD of 0 is off. -/
structure BootParams where
  attachLimit : Nat
  completeLimit : Nat
  silenceLimit : Nat
  bootPolicy : BootPolicy
  scanPeriod : Nat
  deriving DecidableEq, Repr

/-- A region of a golden set or a candidate set (R92). -/
structure Region where
  start : Nat
  length : Nat
  digest : Bytes
  measure : Bool
  scan : Bool
  deriving DecidableEq, Repr

/-- The expected content of a bank (R92). -/
structure GoldenSet where
  valid : Bool
  epoch : Nat
  build : Nat
  regions : List Region
  deriving DecidableEq, Repr

/-- Bank size S and recovery size R (R91). -/
structure Layout where
  bankSize : Nat
  recoverySize : Nat
  deriving DecidableEq, Repr

/-- The active bank and the tries left for a trial (R93). -/
structure BankSelector where
  active : Bank
  tries : Nat
  deriving DecidableEq, Repr

/-- The fields of a staged image that are known once the manifest has passed the layout check (R95, R99). -/
structure ImageFields where
  line : Nat
  epoch : Nat
  build : Nat
  authority : Nat
  segments : Nat
  deriving DecidableEq, Repr

/-- Why a staged image was rejected (R95). -/
inductive RejectReason
  | badSignature | authorityUnusable | rollback | epochStep | badLayout | segmentMismatch (index : Nat) | timeout
  | interrupted | trialFailed | abortedByRelease
  deriving DecidableEq, Repr

/-- The staged record: each state with the fields R95 makes present in it. Segment progress is 0 in the stored VERIFYING record and
the segment count in VERIFIED, ARMED and TRIAL. The candidate set is present for line 0. -/
inductive Staged
  | none
  | verifying
  | verified (fields : ImageFields) (candidate : Option (List Region))
  | armed (fields : ImageFields) (candidate : Option (List Region))
  | trial (fields : ImageFields) (candidate : Option (List Region))
  | rejected (fields : Option ImageFields) (progress : Nat) (reason : RejectReason)
  deriving DecidableEq, Repr

/-- The vault record (R125). -/
structure VaultRecord where
  claimed : Bool
  ownerTag : BitVec 32
  free : Nat
  base : Nat
  cap : Nat
  forgive : Nat
  deriving DecidableEq, Repr

/-- Check only, or retrievable (R126). -/
inductive CredKind
  | verifier | secret
  deriving DecidableEq, Repr

/-- Provisioned at manufacture, with the factory copy that an owner reset restores, or enrolled by the owner (R126). -/
inductive CredClass
  | factory (copy : Bytes) (changed : Bool)
  | owner
  deriving DecidableEq, Repr

/-- The persistent record of a credential that is present (R126). -/
structure Credential where
  label : Bytes
  kind : CredKind
  credClass : CredClass
  value : Bytes
  answerSet : Byte
  sealing : Option Binding
  presence : Bool
  failures : Nat
  deriving DecidableEq, Repr

/-- A pattern as taken (R152): period and on-time in ms, and the repeat count, 0 for continuous. -/
structure Pattern where
  period : Nat
  onTime : Nat
  repeats : Nat
  deriving DecidableEq, Repr

/-- The conditions of the Reaction Table, in the order of their codes (R158). -/
inductive Condition
  | bootMismatch | scanMismatch | trialFallback | penaltyLevel | buttonHold | linkSilence | protectViolation
  | frameErrorBurst
  deriving DecidableEq, Repr

/-- The actions of the Reaction Table with their arguments, in the order of their codes (R158). -/
inductive Action
  | alertOnly
  | showPattern (pattern : Nat)
  | suspendSlots (identities : Byte)
  | holdSoc
  | recoveryNext
  | ownerReset
  deriving DecidableEq, Repr

/-- The persistent fields of an entry of the Reaction Table (R158). -/
structure ReactionEntry where
  enabled : Bool
  condition : Condition
  threshold : Option Nat
  action : Action
  once : Bool
  deriving DecidableEq, Repr

/-- The persistent records of the store (R182). A slot or credential that is `none` is EMPTY or not present. `slotLives` and `credLives` are the
model's own: they count the lives that have ended in each slot and record, and no reply shows them (log entry 53). -/
structure Records where
  slots : Vector (Option KeySlot) 24
  slotLives : Vector Nat 24
  requesters : Vector Requester 8
  recoveryNext : Bool
  params : BootParams
  staged : Staged
  selector : BankSelector
  goldenA : GoldenSet
  goldenB : GoldenSet
  counters : Vector Nat 4
  layout : Option Layout
  vault : VaultRecord
  creds : Vector (Option Credential) 16
  credLives : Vector Nat 16
  patterns : Vector Pattern 4
  reactions : Vector ReactionEntry 8
  lifecycle : Lifecycle
  serial : Bytes
  vaultKey : Bytes
  deriving DecidableEq, Repr

/-! ## The store (R182, R183) -/

/-- A key slot, or a credential record, in one of its lives: a life ends when the slot becomes EMPTY, or the record not present. Work under way
names the life that it was checked against, so that what is created there later is another key, or another credential (R15, R16, R118 to
R120, R124; log entry 53). -/
structure Place where
  index : Nat
  life : Nat
  deriving DecidableEq, Repr

/-- The content of a write or update: what the records it names take at its completion. -/
inductive StoreOp
  /-- A slot is created (R17, R185). -/
  | slotPut (slot : Nat) (record : KeySlot)
  /-- A chunk is appended to a BLOB slot at its length (R20). -/
  | slotAppend (slot : Place) (offset : Nat) (chunk : Bytes)
  /-- The use count of a slot rises by one, retiring the slot at its limit (R6). -/
  | slotCount (slot : Place)
  /-- The policy of a slot is narrowed; an absent limit or binding is kept (R21). -/
  | slotRestrict (slot : Place) (usage answerSet : Byte) (limit : Option Nat) (binding : Option Binding)
  /-- A slot is retired (R22). -/
  | slotRetire (slot : Place)
  /-- A slot is emptied (R22, R185). -/
  | slotErase (slot : Place)
  /-- An identity's record is replaced (R27). -/
  | requesterPut (identity : Nat) (record : Requester)
  /-- RECOVERY_NEXT is set or cleared (R69, R80, R83). -/
  | recoveryNext (value : Bool)
  /-- A Boot Gate parameter is set (R84). -/
  | bootParam (param : BootParam) (value : Nat)
  /-- The staged record is replaced (R96). -/
  | stagedPut (record : Staged)
  /-- VERIFIED becomes ARMED and tries is set (R110). -/
  | arm (tries : Nat)
  /-- ARMED becomes VERIFIED and tries becomes 0 (R109). -/
  | disarm
  /-- ARMED or TRIAL becomes TRIAL and tries is lowered by one (R111). -/
  | trialTry
  /-- The confirming update of line 0 (R112). -/
  | confirmBoot
  /-- The confirming update of lines 1..3 (R113). -/
  | confirmLine (line : Nat)
  /-- The vault is claimed (R131). -/
  | vaultClaim (tag : BitVec 32)
  /-- A vault parameter is set (R138). -/
  | vaultParam (param : VaultParam) (value : Nat)
  /-- A credential record is created at the lowest index that is not present, or replaces the FACTORY record with its label (R132, R186). -/
  | credPut (record : Credential)
  /-- An attempt is charged at the given uptime second (R134). -/
  | credCharge (record : Place) (second : Nat)
  /-- A match clears the failure count (R135). -/
  | credMatch (record : Place)
  /-- A new value, with the failure count cleared or kept, and the decay clock restarted or kept (R140, R141). -/
  | credValue (record : Place) (value : Bytes) (clear restart : Bool)
  /-- A credential record is removed (R142). -/
  | credRemove (record : Place)
  /-- A decay step, with the forgiveness interval under which it fell due (R136, R138). -/
  | credDecay (record : Place) (interval : Nat)
  /-- The owner reset (R144). -/
  | ownerReset
  /-- A policy pattern is replaced (R166). -/
  | patternPut (number : Nat) (pattern : Pattern)
  /-- A reaction entry is replaced (R165). -/
  | reactionPut (index : Nat) (entry : ReactionEntry)
  /-- The flash layout is written and both golden sets become not valid (R187). -/
  | layoutPut (layout : Layout)
  /-- Golden set A and counter 0 are written (R188). -/
  | goldenPut (epoch build : Nat) (regions : List Region)
  /-- The lifecycle becomes FIELD (R189). -/
  | lock
  deriving DecidableEq, Repr

/-- What the writer of a write or update goes on with at its end. -/
inductive After
  /-- Nothing beyond the rule for every write. -/
  | silent
  /-- The request is answered OK with a payload. -/
  | reply (payload : Bytes)
  /-- The request is answered as by KEY INFO of a slot (R21). -/
  | replyKeyInfo (slot : Nat)
  /-- The request is answered with the new length of a blob (R20), or for PROVISION SLOT with the state of its slot (R185). -/
  | replyBlob (slot : Nat) (provision : Bool)
  /-- A counted use is answered with its result and, where `report` holds, the new use count and the slot's state
  (R15, R16, R119). -/
  | replyCounted (slot : Nat) (result : Bytes) (report : Bool)
  /-- A new credential record is answered with its index, which is that of its label (R132, R186). -/
  | replyIndex (label : Bytes)
  /-- CONFIRM IMAGE is answered (R112, R113). -/
  | replyConfirm (line : Nat)
  /-- KEY IMPORT goes on with the count write of its unwrapping slot (R19). -/
  | countUnwrap (slot : Place) (payload : Bytes)
  /-- The charged candidate is compared; with a new passphrase for CRED CHANGE. `before` is the count before the charge
  (R134, R140). -/
  | compare (record : Place) (before : Nat) (candidate : Bytes) (newValue : Option Bytes)
  /-- RECOVERY_NEXT has been written for a reaction; a HOLD_SOC of the same event follows where `hold` holds (R161). -/
  | reactionWrite (hold : Bool)
  /-- VERIFY STAGED is accepted for an identity (R97). -/
  | accept (identity : Nat)
  /-- The trial bank is selected (R70). -/
  | trialSelected
  /-- A decay step of a record ends (R136). -/
  | decayed (index : Nat)
  /-- An owner reset ends, answering a request where `request` holds (R143, R144). -/
  | resetDone (request : Bool)
  deriving DecidableEq, Repr

/-- A write or update handed to the store, with what its writer does at its end. -/
structure StoreItem where
  op : StoreOp
  after : After
  deriving DecidableEq, Repr

/-- The store: the write or update being made and those that wait, oldest first (R183). -/
structure StoreUnit where
  making : Option StoreItem
  waiting : List StoreItem
  deriving DecidableEq, Repr

/-! ## The message link (R167) -/

/-- IDLE, SERVING with the reply NOT_READY, or SERVING with the reply READY (R167). -/
inductive LinkState
  | idle | serving | ready
  deriving DecidableEq, Repr

/-- The request in service (R167). -/
structure Request where
  code : Req
  identity : Nat
  payload : Bytes
  deriving DecidableEq, Repr

/-- A reply frame, less its sync byte, length and CRC, which follow from these (chapter 10, Formats). -/
structure Reply where
  status : Status
  marker : Byte
  identity : Byte
  payload : Bytes
  deriving DecidableEq, Repr

/-- A policy as a request carries it (chapter 10, Formats: Policy). -/
structure Policy where
  classCode : Nat
  kindCode : Nat
  usage : Byte
  answerSet : Byte
  useLimit : Nat
  bindingForm : Nat
  chains : Byte
  bound : Bytes
  label : Bytes
  deriving DecidableEq, Repr

/-- A credential as a request carries it (chapter 10, Formats: CRED ENROLL). -/
structure CredForm where
  label : Bytes
  kindCode : Nat
  answerSet : Byte
  presenceCode : Nat
  sealForm : Nat
  chains : Byte
  bound : Bytes
  value : Bytes
  deriving DecidableEq, Repr

/-- Where the service of the request in service stands, beyond a store write that carries its own continuation. -/
inductive Service
  /-- Nothing under way outside the store. -/
  | none
  /-- The request waits for the vault (R145). -/
  | vaultWait
  /-- KEY SIGN's data is being digested (R14). -/
  | signDigest (slot : Place)
  /-- KEY SIGN's operation is in the Signature Engine (R14). -/
  | signEngine (slot : Place)
  /-- KEY DERIVE's keyed digest is being computed (R16). -/
  | deriveDigest (slot : Place)
  /-- EXTEND DATA's data is being digested (R38). -/
  | extendDigest (chain : Nat) (tag : Bytes)
  /-- A statement body is being digested (R118). -/
  | statementDigest (slot : Place) (body : Bytes)
  /-- A statement's operation is in the Signature Engine (R118). -/
  | statementEngine (slot : Place) (body : Bytes)
  /-- New key material is being made (R18, R185). -/
  | generating (slot : Nat) (policy : Policy) (provision : Bool)
  /-- A candidate's keyed digest is being computed (R135, R140). -/
  | comparing (record : Place) (before : Nat) (newValue : Option Bytes)
  /-- A new passphrase's keyed digest is being computed (R140). -/
  | changing (record : Place) (old : Bool)
  /-- An enrolled passphrase's keyed digest is being computed (R132). -/
  | enrolling (form : CredForm)
  /-- A provisioned passphrase's keyed digest is being computed (R186). -/
  | provisioning (form : CredForm)
  deriving DecidableEq, Repr

/-- The record of the Message Link Unit (R167), with where its request's service stands. -/
structure Link where
  state : LinkState
  request : Option Request
  service : Service
  reply : Option Reply
  flags : BitVec 12
  mask : BitVec 12
  badRun : Nat
  overruns : Nat
  deriving DecidableEq, Repr

/-! ## Identities, stage and measurement (chapter 2) -/

/-- What made a log entry (R34). -/
inductive LogKind
  | bootRegion | recoveryMark | stageMark | request
  deriving DecidableEq, Repr

/-- An entry of the event log (R34). A `source` of `none` is PART; an empty tag is absent. -/
structure LogEntry where
  sequence : Nat
  chain : Nat
  kind : LogKind
  digest : Bytes
  stage : Stage
  source : Option Nat
  tag : Bytes
  deriving DecidableEq, Repr

/-- The volatile state of the Identities, Stage and Measurement block (R42). -/
structure Ism where
  stage : Stage
  chains : Vector Bytes 8
  log : List LogEntry
  deriving DecidableEq, Repr

/-- The volatile state of the Key Table: suspension (R7), and a write held back while an owner reset update is under way (R144). -/
structure KeyTable where
  suspended : Vector Bool 24
  held : Option StoreItem
  deriving DecidableEq, Repr

/-- An operation of the Signature Engine (R23): SIGN of link origin, or VERIFY of image origin. -/
inductive EngineOp
  | sign (slot : Nat) (secretKey digest : Bytes)
  | verify (slot : Nat) (publicKey digest signature : Bytes)
  deriving DecidableEq, Repr

/-! ## Digest Engine and Flash Port (chapter 3) -/

/-- The running state of the digest function SHA-256: its eight words. -/
structure ShaState where
  h0 : Word32
  h1 : Word32
  h2 : Word32
  h3 : Word32
  h4 : Word32
  h5 : Word32
  h6 : Word32
  h7 : Word32
  deriving DecidableEq, Repr

/-- The two digest contexts (R43). -/
inductive CtxId
  | reader | link
  deriving DecidableEq, Repr

/-- FREE, ABSORBING or FINISHED (R43). -/
inductive CtxState
  | free | absorbing | finished
  deriving DecidableEq, Repr

/-- A digest context (R43, R44). `finishing` says that the owner has asked it to finish; `tail` holds a final block still to be absorbed.
For a keyed digest, `keyBlock` is the key block to be absorbed first and `outerKey` the key block of the second digest; either
is empty when there is none. -/
structure Context where
  state : CtxState
  running : ShaState
  byteCount : Nat
  input : Bytes
  finishing : Bool
  tail : Bytes
  keyed : Bool
  keyBlock : Bytes
  outerKey : Bytes
  result : Bytes
  deriving DecidableEq, Repr

/-- The block being absorbed: whose it is, and whether its outcome is to be discarded (R46). -/
structure Absorption where
  context : CtxId
  discard : Bool
  deriving DecidableEq, Repr

/-- The Digest Engine (R43, R45). -/
structure DigestEngine where
  reader : Context
  link : Context
  mark : CtxId
  absorbing : Option Absorption
  deriving DecidableEq, Repr

/-- The purpose and class of a Flash Reader job (R48). -/
inductive Purpose
  | bootMeasure | imageVerify | scan
  deriving DecidableEq, Repr

/-- A Flash Reader job (R48). Its purpose says which requester it belongs to; `index` is the requester's own name for it, a region's index
in the booted set. -/
structure Job where
  purpose : Purpose
  start : Nat
  length : Nat
  remaining : Nat
  expected : Option Bytes
  index : Nat
  deriving DecidableEq, Repr

/-- The Flash Reader (R48): waiting jobs in order of arrival, the job in progress, whether a burst of it is being read (R51), whether it is
cancelled with that burst (R54), and the manifest buffer with the length of the signed part (R53). -/
structure FlashReader where
  waiting : List Job
  current : Option Job
  bursting : Bool
  cancelled : Bool
  buffer : Bytes
  signedLength : Option Nat
  deriving DecidableEq, Repr

/-- What the Flash Port issues to the flash for a SoC transaction, or fills itself (R59, R60): a command at a physical address, a read of a
number of bytes from a physical address, or a number of FF bytes answered by the port. -/
inductive FlashAccess
  | command (address : Nat)
  | plain
  | read (address length : Nat)
  | fill (length : Nat)
  deriving DecidableEq, Repr

/-- Where an area of SoC addresses leads: to physical addresses from a base, or to the port itself (R59). -/
inductive Target
  | flash (base : Nat)
  | fill
  deriving DecidableEq, Repr

/-- An area of consecutive SoC addresses that is mapped as one; no `stop` for the last (R59, R60). -/
structure Area where
  start : Nat
  stop : Option Nat
  target : Target
  deriving DecidableEq, Repr

/-- How the open SoC transaction stands (R55, R56, R62). -/
inductive SocStanding
  | waiting (accesses : List FlashAccess)
  | forwarded (accesses : List FlashAccess)
  | dropped
  | answered (accesses : List FlashAccess)
  deriving DecidableEq, Repr

/-- The open SoC transaction at the target side (R55). -/
structure SocTransaction where
  command : FlashCommand
  standing : SocStanding
  deriving DecidableEq, Repr

/-- What is being served at the flash (R56): nothing, a reader burst of a number of bytes from a physical address (R51), or the SoC. -/
inductive FlashSide
  | idle
  | burst (address length : Nat)
  | soc
  deriving DecidableEq, Repr

/-- The mapping of a release: the booted bank and the bank of the staging view (R59). -/
structure Mapping where
  booted : BootBank
  staging : Bank
  deriving DecidableEq, Repr

/-- The Flash Port (R55 to R62). -/
structure FlashPort where
  side : FlashSide
  soc : Option SocTransaction
  busy : Bool
  violations : Nat
  mapping : Option Mapping
  deriving DecidableEq, Repr

/-! ## The Boot Gate (chapter 4) -/

/-- The states of the Boot Gate (R64). -/
inductive GateState
  | measuring | released | attached | running | faultHold
  deriving DecidableEq, Repr

/-- The measurement verdict (R64). -/
inductive Verdict
  | unmeasured | matched | mismatch (index : Nat) | recovery
  deriving DecidableEq, Repr

/-- The booted set (R71). -/
structure BootedSet where
  regions : List Region
  epoch : Nat
  build : Nat
  trial : Bool
  deriving DecidableEq, Repr

/-- How far a start of measurement has gone: none waits; bank selection waits, with whether a short press caused the start and whether
Image Acceptance has taken its step (R67, R68); the trial selection's write is under way (R70). -/
inductive Selection
  | idle
  | awaiting (shortPress imageDone : Bool)
  | trialWrite
  deriving DecidableEq, Repr

/-- A running scan timer: its period in minutes and its next expiry in ms (R86). -/
structure ScanTimer where
  period : Nat
  next : Nat
  deriving DecidableEq, Repr

/-- A scan round in progress: its jobs not yet ended, those not yet placed, and whether a mismatch has been found in it (R87, R88). -/
structure ScanRound where
  left : Nat
  unplaced : List Job
  mismatched : Bool
  deriving DecidableEq, Repr

/-- The last scan mismatch (R88). -/
structure ScanMismatch where
  index : Nat
  release : Nat
  second : Nat
  deriving DecidableEq, Repr

/-- The scan record (R88). -/
structure ScanRecord where
  rounds : Nat
  skips : Nat
  lastMismatch : Option ScanMismatch
  lastRound : Option Nat
  deriving DecidableEq, Repr

/-- The volatile fields of the Boot Gate record (R64), its start of measurement, its measurement jobs (`unplaced` and the number not yet
ended, R49, R74) and its scan (R86 to R88). A deadline is stopped (`none`) or has an expiry uptime in ms (R181). -/
structure BootGate where
  state : GateState
  selected : Option BootBank
  booted : Option BootedSet
  verdict : Verdict
  releaseCount : Nat
  failures : Nat
  recovery : Bool
  audit : Bool
  attach : Option Nat
  complete : Option Nat
  dwell : Option Nat
  rebootPending : Bool
  reboot : Option Nat
  silence : Option Nat
  selection : Selection
  unplaced : List Job
  jobsLeft : Nat
  scanTimer : Option ScanTimer
  scanRound : Option ScanRound
  scanRecord : ScanRecord
  deriving DecidableEq, Repr

/-! ## Image Acceptance (chapter 5) -/

/-- The phases of a verification (R98). -/
inductive Phase
  | manifestRead | signature | segments
  deriving DecidableEq, Repr

/-- A segment record of a manifest (R98). -/
structure Segment where
  offset : Nat
  length : Nat
  attributes : Byte
  digest : Bytes
  deriving DecidableEq, Repr

/-- The fields of a manifest that has passed the layout check, with its digest (R98). -/
structure Manifest where
  fields : ImageFields
  segments : List Segment
  digest : Bytes
  signature : Bytes
  deriving DecidableEq, Repr

/-- The verification record (R98), with the segment progress (R95). -/
structure Verification where
  phase : Phase
  requester : Nat
  acceptedAt : Nat
  deadline : Option Nat
  manifest : Option Manifest
  index : Nat
  progress : Nat
  deriving DecidableEq, Repr

/-- The volatile state of Image Acceptance: the verification record, and a job not yet placed (R49). -/
structure ImageUnit where
  verification : Option Verification
  unplaced : Option Job
  deriving DecidableEq, Repr

/-! ## The Owner Vault (chapter 7) -/

/-- The work that can hold the vault (R145). -/
inductive VaultWork
  | request | reset | decay
  deriving DecidableEq, Repr

/-- The volatile state of the vault: penalty deadlines and decay clocks as uptime seconds (R126), the work that holds it and the work that
waits for it, oldest first (R145). -/
structure VaultUnit where
  penalty : Vector (Option Nat) 16
  decay : Vector Nat 16
  holder : Option VaultWork
  waiting : List VaultWork
  deriving DecidableEq, Repr

/-! ## Button and Indicator Unit (chapter 8) -/

/-- The debounced button (R147). -/
inductive Button
  | undetermined | released | pressed
  deriving DecidableEq, Repr

/-- A running press timer (R147). -/
structure PressTimer where
  since : Nat
  holdFired : Bool
  untimed : Bool
  deriving DecidableEq, Repr

/-- A generating source: its current pattern, remaining periods, and the start of the current period in ms (R147). -/
structure Generating where
  pattern : Pattern
  remaining : Nat
  start : Nat
  deriving DecidableEq, Repr

/-- A source: absent or generating, with its staged next pattern (R147). -/
structure Source where
  current : Option Generating
  staged : Option Pattern
  deriving DecidableEq, Repr

/-- The volatile fields of the Button and Indicator Unit (R147), with the level of BTN and the uptime at which it was last set (R148). -/
structure Biu where
  pressed : Bool
  levelSince : Nat
  button : Button
  press : Option PressTimer
  window : Option Nat
  reaction : Source
  presence : Source
  host : Source
  deriving DecidableEq, Repr

/-- The volatile fields of the Reaction Table's entries (R158). -/
structure ReactionUnit where
  fired : Vector Bool 8
  counts : Vector Nat 8
  deriving DecidableEq, Repr

/-- What a link transaction that begins now depends on: SOC_HOLD, the link state and the reply (R167, R172, R173). -/
structure LinkMoment where
  held : Bool
  state : LinkState
  reply : Option Reply
  deriving DecidableEq, Repr

/-- The output pins: SOC_HOLD asserted (R65), ALERT driven low (R176), IND lit (R154), and the bytes LINK_DO sent in the last link
transaction (R167, R168, R172). `past` holds the moments of the link since LINK_CS last rose, newest first, in one of which a transaction
in progress began (log entry 10). -/
structure Pins where
  socHold : Bool
  alert : Bool
  ind : Bool
  linkDo : Bytes
  past : List LinkMoment
  deriving DecidableEq, Repr

/-! ## The state -/

/-- The state of the part. `draws` counts the drawings of random material, a counter of free values that is the model's own (log entry 3);
`pending` is the queue of commands, oldest first. -/
structure State where
  kept : Records
  store : StoreUnit
  link : Link
  ism : Ism
  keys : KeyTable
  engine : List EngineOp
  digest : DigestEngine
  reader : FlashReader
  port : FlashPort
  gate : BootGate
  image : ImageUnit
  vault : VaultUnit
  biu : Biu
  reactions : ReactionUnit
  pins : Pins
  uptime : Nat
  powered : Bool
  draws : Nat
  pending : List Instr
  deriving DecidableEq, Repr

/-- The manual gives no event that stops the part: every error is a status, a flag, a condition or a reject reason. No command raises a
fault, which is safe. -/
inductive Fault
  deriving DecidableEq, Repr

/-- Why a command has no meaning in the model. -/
inductive Refusal
  /-- A command not yet modelled, by its mnemonic; raised by the refused arms of exec alone, of which there are none. Safe. -/
  | notModelled (mnemonic : String)
  deriving DecidableEq, Repr

/-! ## Power-on values -/

/-- 32 zero bytes: the value of a chain that has not been extended (R32). -/
def zeroDigest : Bytes := List.replicate 32 0

/-- The factory requester table (R25). -/
def factoryRequesters : Vector Requester 8 :=
  #v[⟨true, .loader, 1⟩, ⟨true, .kernel, 0⟩, ⟨true, .services, 2⟩, ⟨true, .services, 4⟩,
     ⟨false, .services, 0⟩, ⟨false, .services, 0⟩, ⟨false, .services, 0⟩, ⟨false, .services, 0⟩]

/-- The factory policy patterns 1..4 (R147). -/
def factoryPatterns : Vector Pattern 4 :=
  #v[⟨200, 100, 0⟩, ⟨1000, 500, 30⟩, ⟨500, 250, 0⟩, ⟨2000, 1000, 5⟩]

/-- The content of the factory's entries 3..7 (R158). -/
def spareReaction : ReactionEntry := ⟨false, .bootMismatch, none, .alertOnly, false⟩

/-- The factory reaction table (R158). -/
def factoryReactions : Vector ReactionEntry 8 :=
  #v[⟨true, .bootMismatch, none, .showPattern 1, false⟩, ⟨true, .buttonHold, none, .ownerReset, false⟩,
     ⟨true, .protectViolation, none, .alertOnly, false⟩, spareReaction, spareReaction, spareReaction, spareReaction,
     spareReaction]

/-- The vault record at the factory, and after an owner reset (R125, R144). -/
def factoryVault : VaultRecord := ⟨false, 0, 3, 5, 7200, 24⟩

/-- The persistent records of a part as it leaves Arkhelo (R184 and the factory values of each chapter). The serial and the vault key are
zero by log entry 8. -/
def factoryRecords : Records where
  slots := Vector.replicate 24 none
  slotLives := Vector.replicate 24 0
  requesters := factoryRequesters
  recoveryNext := false
  params := ⟨10, 180, 0, .strict, 0⟩
  staged := .none
  selector := ⟨.a, 0⟩
  goldenA := ⟨false, 0, 0, []⟩
  goldenB := ⟨false, 0, 0, []⟩
  counters := Vector.replicate 4 0
  layout := none
  vault := factoryVault
  creds := Vector.replicate 16 none
  credLives := Vector.replicate 16 0
  patterns := factoryPatterns
  reactions := factoryReactions
  lifecycle := .manufacture
  serial := List.replicate 16 0
  vaultKey := List.replicate 32 0

/-- The initial words of SHA-256 (FIPS 180-4; log entry 4). -/
def shaInit : ShaState :=
  ⟨0x6a09e667, 0xbb67ae85, 0x3c6ef372, 0xa54ff53a, 0x510e527f, 0x9b05688c, 0x1f83d9ab, 0x5be0cd19⟩

/-- A FREE context: no owner, holding nothing (R43). -/
def Context.cleared : Context := ⟨.free, shaInit, 0, [], false, [], false, [], [], []⟩

/-- The link at power-on (R167). -/
def linkAtPowerOn : Link := ⟨.idle, none, .none, none, 0, 0xFFF, 0, 0⟩

/-- The stage, chains and log at power-on and at a start of measurement (R42). -/
def ismAtStart : Ism := ⟨.loader, Vector.replicate 8 zeroDigest, []⟩

/-- The Digest Engine at power-on (R43, R45). -/
def digestAtPowerOn : DigestEngine := ⟨Context.cleared, Context.cleared, .link, none⟩

/-- The Flash Reader at power-on (R48). -/
def readerAtPowerOn : FlashReader := ⟨[], none, false, false, [], none⟩

/-- The Flash Port at power-on (R58, R62, R63). -/
def portAtPowerOn : FlashPort := ⟨.idle, none, true, 0, none⟩

/-- The Boot Gate at power-on (R64), its first start of measurement not yet taken. -/
def gateAtPowerOn : BootGate where
  state := .measuring
  selected := none
  booted := none
  verdict := .unmeasured
  releaseCount := 0
  failures := 0
  recovery := false
  audit := false
  attach := none
  complete := none
  dwell := none
  rebootPending := false
  reboot := none
  silence := none
  selection := .idle
  unplaced := []
  jobsLeft := 0
  scanTimer := none
  scanRound := none
  scanRecord := ⟨0, 0, none, none⟩

/-- An absent source (R147). -/
def Source.absent : Source := ⟨none, none⟩

/-- The Button and Indicator Unit at power-on, with BTN at a level (R147). -/
def biuAtPowerOn (pressed : Bool) : Biu :=
  ⟨pressed, 0, .undetermined, none, none, Source.absent, Source.absent, Source.absent⟩

/-- A part in which every volatile field has its power-on value, apart from the penalties of R137 and the first start of measurement. -/
def State.volatileReset (kept : Records) (pressed : Bool) (draws : Nat) (pending : List Instr) : State where
  kept := kept
  store := ⟨none, []⟩
  link := linkAtPowerOn
  ism := ismAtStart
  keys := ⟨Vector.replicate 24 false, none⟩
  engine := []
  digest := digestAtPowerOn
  reader := readerAtPowerOn
  port := portAtPowerOn
  gate := gateAtPowerOn
  image := ⟨none, none⟩
  vault := ⟨Vector.replicate 16 none, Vector.replicate 16 0, none, []⟩
  biu := biuAtPowerOn pressed
  reactions := ⟨Vector.replicate 8 false, Vector.replicate 8 0⟩
  pins := ⟨true, false, false, [], [⟨true, .idle, none⟩]⟩
  uptime := 0
  powered := true
  draws := draws
  pending := pending

/-- The machine right after reset: power-on (R190) of a part as it leaves Arkhelo (R184), with its first start of measurement taken, which
finds nothing to clear or to reject and leaves bank selection to come (R66, log entry 7). -/
def State.reset : State :=
  let s := State.volatileReset factoryRecords false 0 []
  { s with gate := { s.gate with selection := .awaiting false true } }

end Sys2Proof.Machine
end

