-- ==== Sys2Proof/Machine/Sha256.lean ====
section
/-! DEFINITION. The digest and the keyed digest: SHA-256 and HMAC-SHA-256 (00_scope.md, "Cryptographic conventions").

The manual names these functions and leaves out their inside; it is taken from FIPS 180-4 and FIPS 198-1 (log entry 4). -/

namespace Sys2Proof.Machine

/-- A number above 1 and below 361 is prime when no smaller number from 2 to 18 divides it. -/
def smallPrime (n : Nat) : Bool :=
  decide (1 < n) && (List.range 17).all fun d => decide (n ≤ d + 2) || n % (d + 2) != 0

/-- The greatest number whose cube is at most `n`, among those that add to `root` a choice of the powers of two below `2 ^ bits`. -/
def cubeRootFrom (n : Nat) : Nat → Nat → Nat
  | 0, root => root
  | bits + 1, root => cubeRootFrom n bits (if (root + 2 ^ bits) ^ 3 ≤ n then root + 2 ^ bits else root)

/-- The first 32 bits of the fractional part of the cube root of a number below 512: the cube root of the number moved up by 96 bits has 32
fractional bits below its whole part, which the word drops. -/
def cubeRootFraction (n : Nat) : Word32 := BitVec.ofNat 32 (cubeRootFrom (n * 2 ^ 96) 35 0)

/-- The round constants, one for each of the 64 primes up to 311 (FIPS 180-4; log entry 4). -/
def roundConstants : List Word32 := ((List.range 312).filter smallPrime).map cubeRootFraction

/-- Four bytes as a word, most significant first. -/
def wordOf (a b c d : Byte) : Word32 := a ++ b ++ c ++ d

/-- A byte string as words; bytes beyond a multiple of four are dropped. -/
def wordsOf : Bytes → List Word32
  | a :: b :: c :: d :: rest => wordOf a b c d :: wordsOf rest
  | _ => []

/-- A word as four bytes, most significant first. -/
def wordBytes (w : Word32) : Bytes :=
  [w.extractLsb' 24 8, w.extractLsb' 16 8, w.extractLsb' 8 8, w.extractLsb' 0 8]

def smallSigma0 (x : Word32) : Word32 := x.rotateRight 7 ^^^ x.rotateRight 18 ^^^ (x >>> 3)
def smallSigma1 (x : Word32) : Word32 := x.rotateRight 17 ^^^ x.rotateRight 19 ^^^ (x >>> 10)
def bigSigma0 (x : Word32) : Word32 := x.rotateRight 2 ^^^ x.rotateRight 13 ^^^ x.rotateRight 22
def bigSigma1 (x : Word32) : Word32 := x.rotateRight 6 ^^^ x.rotateRight 11 ^^^ x.rotateRight 25

/-- `k` at `w`, written so that Lean's kernel computes `w` once and shares its value. -/
def sharing {α : Type} (w : Word32) (k : Word32 → α) : α :=
  match w.toNat with
  | 0 => k 0
  | n + 1 => k (BitVec.ofNat 32 (n + 1))

theorem sharing_eq {α : Type} (w : Word32) (k : Word32 → α) : sharing w k = k w := by
  unfold sharing
  split
  next h => exact congrArg k (BitVec.eq_of_toNat_eq (by simp [h]))
  next n h => exact congrArg k (BitVec.eq_of_toNat_eq (by rw [h]; simp; omega))

/-- The message schedule, newest word first, with `n` words more. -/
def scheduleMore : Nat → List Word32 → List Word32
  | 0, w => w
  | n + 1, w =>
    sharing (smallSigma1 (w.getD 1 0) + w.getD 6 0 + smallSigma0 (w.getD 14 0) + w.getD 15 0)
      fun word => scheduleMore n (word :: w)

/-- The 64 words of the message schedule of a block. -/
def schedule (block : Bytes) : List Word32 := (scheduleMore 48 (wordsOf block).reverse).reverse

/-- One round. -/
def round (s : ShaState) (k w : Word32) : ShaState :=
  sharing (s.h7 + bigSigma1 s.h4 + ((s.h4 &&& s.h5) ^^^ (~~~s.h4 &&& s.h6)) + k + w) fun t1 =>
  sharing (t1 + bigSigma0 s.h0 + ((s.h0 &&& s.h1) ^^^ (s.h0 &&& s.h2) ^^^ (s.h1 &&& s.h2))) fun a =>
  sharing (s.h3 + t1) fun e => ⟨a, s.h0, s.h1, s.h2, e, s.h4, s.h5, s.h6⟩

/-- The rounds over constants and words in step. -/
def rounds : ShaState → List Word32 → List Word32 → ShaState
  | s, k :: ks, w :: ws => rounds (round s k w) ks ws
  | s, _, _ => s

/-- The running state after a block of 64 bytes has been absorbed (R44). -/
def compress (s : ShaState) (block : Bytes) : ShaState :=
  match rounds s roundConstants (schedule block) with
  | ⟨a, b, c, d, e, f, g, h⟩ =>
    ⟨s.h0 + a, s.h1 + b, s.h2 + c, s.h3 + d, s.h4 + e, s.h5 + f, s.h6 + g, s.h7 + h⟩

/-- The digest that a running state stands for once the final block has been absorbed. -/
def ShaState.result (s : ShaState) : Bytes :=
  wordBytes s.h0 ++ wordBytes s.h1 ++ wordBytes s.h2 ++ wordBytes s.h3 ++ wordBytes s.h4 ++ wordBytes s.h5 ++
    wordBytes s.h6 ++ wordBytes s.h7

/-- The one or two final blocks: the last bytes, fewer than 64, padded with the count of all bytes digested (R44). -/
def finalBlocks (last : Bytes) (count : Nat) : Bytes :=
  last ++ [0x80] ++ List.replicate ((119 - last.length) % 64) 0 ++
    wordBytes (BitVec.ofNat 32 (count * 8 / 4294967296)) ++ wordBytes (BitVec.ofNat 32 (count * 8))

/-- Absorbing at most `n` blocks of 64 bytes from a byte string. -/
def absorbBlocks : Nat → ShaState → Bytes → ShaState
  | 0, s, _ => s
  | n + 1, s, bytes =>
    if 64 ≤ bytes.length then absorbBlocks n (compress s (bytes.take 64)) (bytes.drop 64) else s

/-- The digest of a byte string. -/
def sha256 (bytes : Bytes) : Bytes :=
  let whole := bytes.length / 64 * 64
  let padded := bytes.take whole ++ finalBlocks (bytes.drop whole) bytes.length
  (absorbBlocks (padded.length / 64) shaInit padded).result

/-- The first and the second key block of a keyed digest; a key has at most 64 bytes here. -/
def innerKeyBlock (key : Bytes) : Bytes := (padTo 64 key).map (· ^^^ 0x36)
def outerKeyBlock (key : Bytes) : Bytes := (padTo 64 key).map (· ^^^ 0x5C)

/-- The keyed digest of a byte string under a key of at most 64 bytes. -/
def hmacSha256 (key bytes : Bytes) : Bytes := sha256 (outerKeyBlock key ++ sha256 (innerKeyBlock key ++ bytes))

/-- The value a chain takes when it is extended (R32). -/
def extendChain (value eventDigest : Bytes) : Bytes := sha256 (value ++ eventDigest)

end Sys2Proof.Machine
end

