-- ==== Sys2Proof/Machine/Digest.lean ====
section
/-! DEFINITION. The Digest Engine: the two contexts, their blocks and the arbiter (R43 to R47). -/

namespace Sys2Proof.Machine

/-! ## A context -/

/-- A context has a block ready: the key block, 64 or more bytes of input, or a final block (R44). -/
def Context.blockReady (c : Context) : Bool :=
  c.state == .absorbing && (!c.keyBlock.isEmpty || decide (64 ≤ c.input.length) || !c.tail.isEmpty)

/-- The block a context would have absorbed next (R44). -/
def Context.nextBlock (c : Context) : Bytes :=
  if !c.keyBlock.isEmpty then c.keyBlock
  else if 64 ≤ c.input.length then c.input.take 64
  else c.tail.take 64

/-- Once its owner has asked a context to finish, the bytes left in the input, fewer than 64, are padded with the byte
count into the final blocks (R44). The key block of a keyed digest is counted with the bytes (log entry 32). -/
def Context.padded (c : Context) : Context :=
  if c.finishing && c.tail.isEmpty && decide (c.input.length < 64) then
    { c with tail := finalBlocks c.input (c.byteCount + if c.keyed then 64 else 0), input := [] }
  else c

/-- A context opened for a digest (R43). -/
def Context.opened : Context := { Context.cleared with state := .absorbing }

/-- A context opened for a keyed digest (R44). -/
def Context.openedKeyed (key : Bytes) : Context :=
  { Context.opened with keyed := true, keyBlock := innerKeyBlock key, outerKey := outerKeyBlock key }

/-- The owner gives bytes to a context (R43). -/
def Context.give (bytes : Bytes) (c : Context) : Context :=
  { c with input := c.input ++ bytes, byteCount := c.byteCount + bytes.length }

/-- The owner asks a context to finish (R44). -/
def Context.finish (c : Context) : Context := ({ c with finishing := true } : Context).padded

/-- A block of a context has been absorbed. After the last final block the context holds its digest, or goes on to the
second digest of a keyed digest (R44). -/
def Context.absorb (c : Context) : Context :=
  let running := compress c.running c.nextBlock
  if !c.keyBlock.isEmpty then { c with running := running, keyBlock := [] }
  else if 64 ≤ c.input.length then ({ c with running := running, input := c.input.drop 64 } : Context).padded
  else if !(c.tail.drop 64).isEmpty then { c with running := running, tail := c.tail.drop 64 }
  else if c.outerKey.isEmpty then
    { c with state := .finished, running := running, tail := [], result := running.result }
  else
    ({ c with running := shaInit, keyBlock := c.outerKey, outerKey := [], tail := [], input := running.result,
              byteCount := 32 } : Context).padded

/-- The input is empty: every block given so far has been absorbed (R47). A final block of padding alone, which follows a signed part of 64 or
256 bytes, holds it non-empty until it is absorbed: R43 counts bytes given as input and R44 removes every block from it, which leaves this
open: the model's choice (log entry 54). -/
def Context.drained (c : Context) : Bool := c.input.isEmpty && c.tail.isEmpty

/-! ## The engine -/

def DigestEngine.context (d : DigestEngine) : CtxId → Context
  | .reader => d.reader
  | .link => d.link

def DigestEngine.withContext (d : DigestEngine) (which : CtxId) (c : Context) : DigestEngine :=
  match which with
  | .reader => { d with reader := c }
  | .link => { d with link := c }

/-- The context whose block the free engine takes: of two ready contexts the one that the mark does not name (R45). -/
def DigestEngine.choice (d : DigestEngine) : Option CtxId :=
  match d.reader.blockReady, d.link.blockReady with
  | true, false => some .reader
  | false, true => some .link
  | true, true => some (if d.mark = .reader then .link else .reader)
  | false, false => none

/-- The engine, if it is free, takes a block (R45). -/
def DigestEngine.takeBlock (d : DigestEngine) : DigestEngine :=
  match d.absorbing with
  | some _ => d
  | none => { d with absorbing := d.choice.map fun which => ⟨which, false⟩ }

/-- A context is cleared; a block of it that is being absorbed completes, its outcome is discarded, and the mark then names its context. R46
says so of the LINK context. R47 and R54 clear the READER context and do not say what becomes of a block of it that is being absorbed: that it
goes the same way, with the mark READER, is the model's choice (log entry 57). -/
def DigestEngine.clear (which : CtxId) (d : DigestEngine) : DigestEngine :=
  { d.withContext which Context.cleared with
    absorbing := d.absorbing.map fun a => if a.context = which then { a with discard := true } else a }

/-- A request opens the LINK context anew, gives it all its bytes and asks it to finish; with a key for a keyed digest
(R44, R46). -/
def DigestEngine.beginLink (key : Option Bytes) (bytes : Bytes) (d : DigestEngine) : DigestEngine :=
  let fresh := match key with
    | none => Context.opened
    | some k => Context.openedKeyed k
  ((d.clear .link).withContext .link ((fresh.give bytes).finish)).takeBlock

/-- The block being absorbed has been absorbed: the mark names its context, and its outcome is kept unless it is to be
discarded (R45, R46; of a READER block, log entry 57). -/
def DigestEngine.absorbed (a : Absorption) (d : DigestEngine) : DigestEngine :=
  let d := { d with mark := a.context, absorbing := none }
  if a.discard then d else d.withContext a.context (d.context a.context).absorb

end Sys2Proof.Machine
end

