-- ==== Sys2Proof/Machine/Flags.lean ====
section
/-! DEFINITION. The attention flags and ALERT (R176), the bad-frame run (R174) and the saturating counters. -/

namespace Sys2Proof.Machine

/-- The bit of a flag (R176). -/
def Flag.bit : Flag → Nat
  | .imageDone => 0
  | .scanMismatch => 1
  | .protectViolation => 2
  | .presenceOpen => 3
  | .ownerReset => 4
  | .reaction => 5
  | .linkError => 6
  | .overrun => 7
  | .bootNote => 8
  | .silence => 9
  | .penalty => 10
  | .storeFault => 11

/-- The set that holds one flag. -/
def Flag.set (f : Flag) : BitVec 12 := 1#12 <<< f.bit

/-- A flag is raised: raising a flag that is set leaves it set (R176). -/
def State.raise (f : Flag) (s : State) : State :=
  { s with link := { s.link with flags := s.link.flags ||| f.set } }

/-- Whether a flag is set. -/
def State.flagged (f : Flag) (s : State) : Bool := s.link.flags &&& f.set != 0

/-- The flags named in a set are cleared (R177). -/
def State.clearFlags (named : BitVec 12) (s : State) : State :=
  { s with link := { s.link with flags := s.link.flags &&& ~~~named } }

/-- ALERT is driven low while a flag that is set is also in the alert mask (R176). -/
def State.alertLevel (s : State) : Bool := s.link.flags &&& s.link.mask != 0

/-- A counter raised by one, stopping at its maximum (00_scope.md, "Saturating"). -/
def saturating (maximum n : Nat) : Nat := min (n + 1) maximum

/-- The bad-frame run is raised by one (R174). -/
def State.raiseBadRun (s : State) : State :=
  { s with link := { s.link with badRun := saturating 255 s.link.badRun } }

/-- An accepted frame sets the bad-frame run to 0 (R170). -/
def State.acceptFrame (s : State) : State := { s with link := { s.link with badRun := 0 } }

/-- Whether the raise just made has taken the bad-frame run from 7 to 8 (R174). -/
def burstReached (before after : State) : Bool := before.link.badRun == 7 && after.link.badRun == 8

end Sys2Proof.Machine
end

