-- ==== Sys2Proof/Machine/Operands.lean ====
section
/-! DEFINITION. The byte layouts that the SoC and the part hold in common (chapter 10, Formats): the codings of fields, and the
reading of request payloads. A reading answers nothing where the payload has a length that its layout cannot have. -/

namespace Sys2Proof.Machine

/-! ## Codings -/

/-- Status codes (Formats). -/
def Status.code : Status → Byte
  | .ok => 0x00
  | .started => 0x01
  | .badFrame => 0x10
  | .badLength => 0x11
  | .unknownRequest => 0x12
  | .identityDisabled => 0x13
  | .stageClosed => 0x14
  | .notPermitted => 0x15
  | .slotSuspended => 0x16
  | .badArgument => 0x17
  | .busy => 0x18
  | .wrongState => 0x19
  | .slotEmpty => 0x1A
  | .slotOccupied => 0x1B
  | .labelTaken => 0x1C
  | .bindingMismatch => 0x1D
  | .chainReserved => 0x1E
  | .logFull => 0x1F
  | .noPresence => 0x20
  | .wait => 0x21
  | .noMatch => 0x22
  | .storeFault => 0x23

/-- Request codes (Formats). -/
def Req.ofCode (code : Byte) : Option Req :=
  match code.toNat with
  | 0x01 => some .identify
  | 0x02 => some .readAttention
  | 0x03 => some .clearAttention
  | 0x04 => some .setAlertMask
  | 0x05 => some .setParameter
  | 0x06 => some .readParameter
  | 0x10 => some .keyInfo
  | 0x11 => some .keyGenerate
  | 0x12 => some .keyImport
  | 0x13 => some .keyExportPublic
  | 0x14 => some .keySign
  | 0x15 => some .keyDerive
  | 0x16 => some .keyRestrict
  | 0x17 => some .keyRetire
  | 0x18 => some .keyErase
  | 0x19 => some .blobWrite
  | 0x1A => some .blobRead
  | 0x20 => some .extendDigest
  | 0x21 => some .extendData
  | 0x22 => some .readChains
  | 0x23 => some .readLog
  | 0x24 => some .advanceStage
  | 0x25 => some .requesterWrite
  | 0x26 => some .requesterRead
  | 0x28 => some .makeStatement
  | 0x30 => some .verifyStaged
  | 0x31 => some .imageStatus
  | 0x32 => some .abortImage
  | 0x33 => some .armTrial
  | 0x34 => some .confirmImage
  | 0x35 => some .rebootRouter
  | 0x36 => some .readCounters
  | 0x37 => some .scanStatus
  | 0x40 => some .vaultStatus
  | 0x41 => some .vaultClaim
  | 0x42 => some .credEnroll
  | 0x43 => some .credCheck
  | 0x44 => some .credRetrieve
  | 0x45 => some .credChange
  | 0x46 => some .credRemove
  | 0x47 => some .ownerReset
  | 0x50 => some .setIndicator
  | 0x51 => some .presenceStatus
  | 0x58 => some .reactionRead
  | 0x59 => some .reactionWrite
  | 0x5A => some .patternWrite
  | 0x70 => some .provisionSlot
  | 0x71 => some .provisionCredential
  | 0x72 => some .provisionLayout
  | 0x73 => some .provisionGolden
  | 0x74 => some .lockFactory
  | _ => none

/-- Stages are numbered in rising order (R29). -/
def Stage.number : Stage → Nat
  | .loader => 0
  | .kernel => 1
  | .system => 2
  | .services => 3

def Stage.ofNumber : Nat → Option Stage
  | 0 => some .loader
  | 1 => some .kernel
  | 2 => some .system
  | 3 => some .services
  | _ => none

def Bank.code : Bank → Byte
  | .a => 0
  | .b => 1

/-- Bank: 00 A, 01 B, 02 RECOVERY, FF absent (Formats). -/
def bankCode : Option BootBank → Byte
  | some (.bank bank) => bank.code
  | some .recovery => 2
  | none => 0xFF

def GateState.code : GateState → Byte
  | .measuring => 0
  | .released => 1
  | .attached => 2
  | .running => 3
  | .faultHold => 4

def Lifecycle.code : Lifecycle → Byte
  | .manufacture => 0
  | .field => 1

def SlotClass.code : SlotClass → Byte
  | .factory => 0
  | .system => 1
  | .owner => 2

def SlotClass.ofCode : Nat → Option SlotClass
  | 0 => some .factory
  | 1 => some .system
  | 2 => some .owner
  | _ => none

def KeyKind.code : KeyKind → Byte
  | .signingPair => 0
  | .verifyPublic => 1
  | .secret => 2
  | .blob => 3

def KeyKind.ofCode : Nat → Option KeyKind
  | 0 => some .signingPair
  | 1 => some .verifyPublic
  | 2 => some .secret
  | 3 => some .blob
  | _ => none

/-- Slot state: 00 EMPTY, 01 ACTIVE, 02 RETIRED (Formats). -/
def slotStateCode : Option KeyState → Byte
  | none => 0
  | some .active => 1
  | some .retired => 2

def LogKind.code : LogKind → Byte
  | .bootRegion => 0
  | .recoveryMark => 1
  | .stageMark => 2
  | .request => 3

def Staged.code : Staged → Byte
  | .none => 0
  | .verifying => 1
  | .verified _ _ => 2
  | .armed _ _ => 3
  | .trial _ _ => 4
  | .rejected _ _ _ => 5

def Phase.code : Phase → Byte
  | .manifestRead => 0
  | .signature => 1
  | .segments => 2

def RejectReason.code : RejectReason → Byte
  | .badSignature => 0x01
  | .authorityUnusable => 0x02
  | .rollback => 0x03
  | .epochStep => 0x04
  | .badLayout => 0x05
  | .segmentMismatch _ => 0x06
  | .timeout => 0x07
  | .interrupted => 0x08
  | .trialFailed => 0x09
  | .abortedByRelease => 0x0A

def Verdict.code : Verdict → Byte
  | .unmeasured => 0
  | .matched => 1
  | .mismatch _ => 2
  | .recovery => 3

def CredKind.code : CredKind → Byte
  | .verifier => 0
  | .secret => 1

/-- Conditions are coded by their position (R158). -/
def Condition.code : Condition → Byte
  | .bootMismatch => 0
  | .scanMismatch => 1
  | .trialFallback => 2
  | .penaltyLevel => 3
  | .buttonHold => 4
  | .linkSilence => 5
  | .protectViolation => 6
  | .frameErrorBurst => 7

def Condition.ofCode : Nat → Option Condition
  | 0 => some .bootMismatch
  | 1 => some .scanMismatch
  | 2 => some .trialFallback
  | 3 => some .penaltyLevel
  | 4 => some .buttonHold
  | 5 => some .linkSilence
  | 6 => some .protectViolation
  | 7 => some .frameErrorBurst
  | _ => none

/-- Actions are coded by their position (R158). -/
def Action.code : Action → Byte
  | .alertOnly => 0
  | .showPattern _ => 1
  | .suspendSlots _ => 2
  | .holdSoc => 3
  | .recoveryNext => 4
  | .ownerReset => 5

/-- Parameter names (R180). -/
def Param.ofCode (code : Byte) : Option Param :=
  match code.toNat with
  | 0x01 => some (.boot .attachLimit)
  | 0x02 => some (.boot .completeLimit)
  | 0x03 => some (.boot .silenceLimit)
  | 0x04 => some (.boot .bootPolicy)
  | 0x05 => some (.boot .scanPeriod)
  | 0x10 => some (.vault .free)
  | 0x11 => some (.vault .base)
  | 0x12 => some (.vault .cap)
  | 0x13 => some (.vault .forgive)
  | _ => none

/-- Which source IND shows: 00 NONE, 01 REACTION, 02 PRESENCE, 03 HOST (Formats). -/
def shownCode : Option IndSource → Byte
  | none => 0
  | some .reaction => 1
  | some .presence => 2
  | some .host => 3

/-- The usages, one bit each (Formats). -/
def useSign : Nat := 0
def useStatement : Nat := 1
def useAuthority : Nat := 2
def useDerive : Nat := 3
def useUnwrap : Nat := 4
def useReadBlob : Nat := 5

/-- A label as it is carried: its length, then its bytes (Formats). -/
def labelBytes (label : Bytes) : Bytes := byteOf label.length :: label

/-! ## Reading payloads -/

/-- What a byte string holds before and after `n` bytes, where it is long enough. -/
def takeBytes (n : Nat) (bytes : Bytes) : Option (Bytes × Bytes) :=
  if n ≤ bytes.length then some (bytes.take n, bytes.drop n) else none

/-- A number of `n` bytes at the front. -/
def takeNumber (n : Nat) (bytes : Bytes) : Option (Nat × Bytes) :=
  (takeBytes n bytes).map fun (front, rest) => (number front, rest)

/-- A byte at the front. -/
def takeByte : Bytes → Option (Byte × Bytes)
  | [] => none
  | b :: rest => some (b, rest)

/-- A byte string preceded by its length in one byte: a label, a value, a passphrase. -/
def takeCounted (bytes : Bytes) : Option (Bytes × Bytes) :=
  match bytes with
  | [] => none
  | n :: rest => takeBytes n.toNat rest

/-- Nothing is left. -/
def atEnd (rest : Bytes) : Option Unit := if rest.isEmpty then some () else none

/-- A layout that carries nothing. -/
def readNothing (payload : Bytes) : Option Unit := atEnd payload

/-- A layout of one byte: a slot, a stage, a line, a chain set, a parameter name. -/
def readByte (payload : Bytes) : Option Byte :=
  match payload with
  | [b] => some b
  | _ => none

/-- A policy at the front (Formats: Policy). -/
def takePolicy (bytes : Bytes) : Option (Policy × Bytes) := do
  let (classCode, bytes) ← takeNumber 1 bytes
  let (kindCode, bytes) ← takeNumber 1 bytes
  let (usage, bytes) ← takeByte bytes
  let (answerSet, bytes) ← takeByte bytes
  let (useLimit, bytes) ← takeNumber 2 bytes
  let (bindingForm, bytes) ← takeNumber 1 bytes
  let (chains, bytes) ← takeByte bytes
  let (bound, bytes) ← takeBytes (if bindingForm = 1 then 32 else 0) bytes
  let (label, bytes) ← takeCounted bytes
  pure (⟨classCode, kindCode, usage, answerSet, useLimit, bindingForm, chains, bound, label⟩, bytes)

/-- A credential (Formats: CRED ENROLL). -/
def readCredForm (payload : Bytes) : Option CredForm := do
  let (label, bytes) ← takeCounted payload
  let (kindCode, bytes) ← takeNumber 1 bytes
  let (answerSet, bytes) ← takeByte bytes
  let (presenceCode, bytes) ← takeNumber 1 bytes
  let (sealForm, bytes) ← takeNumber 1 bytes
  let (chains, bytes) ← takeByte bytes
  let (bound, bytes) ← takeBytes (if sealForm = 1 then 32 else 0) bytes
  let (value, bytes) ← takeCounted bytes
  atEnd bytes
  pure ⟨label, kindCode, answerSet, presenceCode, sealForm, chains, bound, value⟩

/-- A label and nothing more (CRED RETRIEVE, CRED REMOVE). -/
def readLabel (payload : Bytes) : Option Bytes := do
  let (label, bytes) ← takeCounted payload
  atEnd bytes
  pure label

/-- A pattern: period (2), on-time (2), repeat count (1). -/
def readPattern (bytes : Bytes) : Option Pattern := do
  let (period, bytes) ← takeNumber 2 bytes
  let (onTime, bytes) ← takeNumber 2 bytes
  let (repeats, bytes) ← takeNumber 1 bytes
  atEnd bytes
  pure ⟨period, onTime, repeats⟩

/-- A pattern as a reply carries it. -/
def Pattern.bytes (p : Pattern) : Bytes := le16 p.period ++ le16 p.onTime ++ [byteOf p.repeats]

end Sys2Proof.Machine
end

