-- ==== Sys2Proof/Machine/Ops.lean ====
section
/-! DEFINITION. The operations that every block shares: reading the state, handing writes to the store, making a reply ready,
and taking an event. -/

namespace Sys2Proof.Machine

/-! ## Checks -/

/-- The first failing check of a request gives its reply status (R170 step 7). -/
abbrev Checked (α : Type) := Except Status α

/-- A check: it passes, or gives a status. -/
def check (holds : Bool) (failure : Status) : Checked Unit :=
  if holds then .ok () else .error failure

/-- A payload that has been read, or one of a length that its layout cannot have: BAD_ARGUMENT (R171, log entry 20). -/
def layout {α : Type} (reading : Option α) : Checked α :=
  match reading with
  | some a => .ok a
  | none => .error .badArgument

/-- A value that must be present, or a status. -/
def present {α : Type} (value : Option α) (failure : Status) : Checked α :=
  match value with
  | some a => .ok a
  | none => .error failure

/-! ## Reading the state -/

/-- The uptime second (R181). -/
def State.second (s : State) : Nat := s.uptime / 1000

/-- SOC_HOLD is asserted in MEASURING and FAULT_HOLD (R65). -/
def State.held (s : State) : Bool := s.gate.state == .measuring || s.gate.state == .faultHold

/-- Bank size S, 0 while the layout is absent (R91). -/
def State.bankSize (s : State) : Nat := (s.kept.layout.map (·.bankSize)).getD 0

/-- Recovery size R, 0 while the layout is absent (R91). -/
def State.recoverySize (s : State) : Nat := (s.kept.layout.map (·.recoverySize)).getD 0

def Bank.other : Bank → Bank
  | .a => .b
  | .b => .a

/-- A bank's first physical address: bank A lies at [0, S) and bank B at [S, 2S) (R91). -/
def Bank.base (bankSize : Nat) : Bank → Nat
  | .a => 0
  | .b => bankSize

/-- The inactive bank: the one the bank selector does not name (R91). -/
def State.inactiveBank (s : State) : Bank := s.kept.selector.active.other

def Records.golden (r : Records) : Bank → GoldenSet
  | .a => r.goldenA
  | .b => r.goldenB

/-- Slot `i`, where it is not EMPTY. -/
def Records.slot (r : Records) (i : Nat) : Option KeySlot := (r.slots[i]?).join

/-- Credential record `i`, where it is present. -/
def Records.cred (r : Records) (i : Nat) : Option Credential := (r.creds[i]?).join

/-- Slot `i` in the life that it has (log entry 53). -/
def Records.slotPlace (r : Records) (i : Nat) : Place := ⟨i, (r.slotLives[i]?).getD 0⟩

/-- The slot that a place names, where it is not EMPTY and has not been since (R15, R118, R120). -/
def Records.slotAt (r : Records) (p : Place) : Option KeySlot :=
  if r.slotPlace p.index = p then r.slot p.index else none

/-- Credential record `i` in the life that it has (log entry 53). -/
def Records.credPlace (r : Records) (i : Nat) : Place := ⟨i, (r.credLives[i]?).getD 0⟩

/-- The credential record that a place names, where it is present and has been since. -/
def Records.credAt (r : Records) (p : Place) : Option Credential :=
  if r.credPlace p.index = p then r.cred p.index else none

/-- The release marker: the release count, RECOVERY in bit 6 and AUDIT in bit 7 (Formats, R171). -/
def State.marker (s : State) : Byte :=
  byteOf (s.gate.releaseCount % 64) ||| (if s.gate.recovery then 0x40 else 0) ||| (if s.gate.audit then 0x80 else 0)

/-- The values of the chains of a set, in ascending chain order (R8). -/
def Ism.chainValues (m : Ism) (set : Byte) : Bytes :=
  (members set).flatMap fun c => (m.chains[c]?).getD zeroDigest

/-- What a binding or a seal over a set of chains is compared with (R8, R128). -/
def Ism.chainsDigest (m : Ism) (set : Byte) : Bytes := sha256 (m.chainValues set)

/-- A binding or seal that is absent matches; another matches when the digest of its chains equals its bound value (R8, R128). -/
def Ism.bindingMatches (m : Ism) : Option Binding → Bool
  | none => true
  | some b => m.chainsDigest b.chains == b.bound

/-- Identity `i`'s record of the requester table (R25). -/
def State.requester (s : State) (i : Nat) : Option Requester := s.kept.requesters[i]?

/-- Identity `i` holds ADMIN (bit 0), UPDATE (bit 1) or OWNER (bit 2) (R25). -/
def State.hasRight (s : State) (i bit : Nat) : Bool :=
  match s.requester i with
  | some r => inSet r.rights bit
  | none => false

def rightAdmin : Nat := 0
def rightUpdate : Nat := 1
def rightOwner : Nat := 2

/-- An identity is admitted while it is enabled and the current stage is at or below its ceiling (R26). -/
def State.admits (s : State) (i : Nat) : Bool :=
  match s.requester i with
  | some r => r.enabled && decide (s.ism.stage.number ≤ r.ceiling.number)
  | none => false

/-- The admitted identities, one bit for each (R26). -/
def State.admittedSet (s : State) : Byte :=
  (List.range 8).foldl (fun set i => if s.admits i then set ||| byteOf (2 ^ i) else set) 0

/-! ## IND -/

def Biu.source (b : Biu) : IndSource → Source
  | .reaction => b.reaction
  | .presence => b.presence
  | .host => b.host

/-- IND shows the highest-ranked source that is generating (R154). -/
def Biu.shown (b : Biu) : Option IndSource :=
  if b.reaction.current.isSome then some .reaction
  else if b.presence.current.isSome then some .presence
  else if b.host.current.isSome then some .host
  else none

/-- A generating source is in the on-time of its current period (R154). -/
def Source.inOnTime (now : Nat) (source : Source) : Bool :=
  match source.current with
  | some g => decide (now < g.start + g.pattern.onTime)
  | none => false

/-- IND is lit while the shown source is in the on-time of its current period (R154). -/
def State.indLit (s : State) : Bool :=
  match s.biu.shown with
  | some which => (s.biu.source which).inOnTime s.uptime
  | none => false

/-! ## Taking an event -/

/-- What a link transaction that begins in this state depends on (R167, R172, R173). -/
def State.moment (s : State) : LinkMoment := ⟨s.held, s.link.state, s.link.reply⟩

/-- A moment of the link joins those before it where it differs from the last (log entry 10). -/
def noteMoment (m : LinkMoment) (past : List LinkMoment) : List LinkMoment :=
  if past.head? = some m then past else m :: past

/-- The output pins follow the state at the end of an event: SOC_HOLD (R65), ALERT (R176), IND (R154); and a change of the link is noted. -/
def State.settle (s : State) : State :=
  { s with pins := { s.pins with
      socHold := s.held, alert := s.alertLevel, ind := s.indLit, past := noteMoment s.moment s.pins.past } }

/-- An event of the powered part: it has its effect where its condition holds, and is nothing where it does not (log entry 5). -/
def event (condition : Bool) (effect : State → State) (s : State) : Host.Outcome State Fault Refusal :=
  .next (if s.powered && condition then (effect s).settle else s)

/-- A deadline has been reached (R181). -/
def reached (deadline : Option Nat) (now : Nat) : Bool :=
  match deadline with
  | some expiry => decide (expiry ≤ now)
  | none => false

/-! ## The store -/

/-- What a writer hands to the store waits in its list, in order of arrival (R183). Items that several writers hand over in one event wait in
the order in which the event's meaning hands them over; R183 allows either order: the model's choice (log entry 44). -/
def State.handOver (op : StoreOp) (after : After) (s : State) : State :=
  { s with store := { s.store with waiting := s.store.waiting ++ [⟨op, after⟩] } }

/-- Every write and update that is begun and not yet ended (R182). -/
def State.begun (s : State) : List StoreItem := s.store.making.toList ++ s.store.waiting

/-- An owner reset's update is begun and not yet ended (R144). -/
def State.resetBegun (s : State) : Bool := s.begun.any fun item => item.op == .ownerReset

/-! ## Replies -/

/-- The bytes of a reply frame: sync, status, release marker, answering identity, length, payload, CRC (Formats). -/
def Reply.frame (r : Reply) : Bytes :=
  let body := [r.status.code, r.marker, r.identity] ++ le16 r.payload.length ++ r.payload
  0x5A :: body ++ crcBytes body

/-- The vault is released by a request that ends or is dropped (R145). -/
def VaultUnit.releaseRequest (v : VaultUnit) : VaultUnit :=
  { v with
    holder := if v.holder = some .request then none else v.holder
    waiting := v.waiting.filter (· != .request) }

/-- A reply is made ready: it takes the release marker as it stands, the request in service becomes absent, and the LINK context
and the vault are released (R171, R46, R145). -/
def answerAs (identity : Byte) (status : Status) (payload : Bytes) (s : State) : State :=
  { s with
    link := { s.link with
      state := .ready, request := none, service := .none, reply := some ⟨status, s.marker, identity, payload⟩ }
    digest := s.digest.clear .link
    vault := s.vault.releaseRequest }

/-- The answering identity of the request in service (R170). -/
def State.asker (s : State) : Byte :=
  match s.link.request with
  | some r => byteOf r.identity
  | none => 0xFF

/-- A reply to the request in service. -/
def answer (status : Status) (payload : Bytes) (s : State) : State := answerAs s.asker status payload s

/-- A reply without a payload. -/
def refuse (status : Status) (s : State) : State := answer status [] s

/-- A request whose checks give a status is refused with it; otherwise it has the effect found. -/
def served (result : Checked State) (s : State) : State :=
  match result with
  | .ok t => t
  | .error status => refuse status s

/-- A request whose checks give a status is refused with it; otherwise it is answered OK with the payload found. -/
def answered (result : Checked Bytes) (s : State) : State :=
  match result with
  | .ok payload => answer .ok payload s
  | .error status => refuse status s

/-- The request goes on with the digest of some bytes, or their keyed digest, in the LINK context (R46). -/
def beginDigest (key : Option Bytes) (bytes : Bytes) (service : Service) (s : State) : State :=
  { s with
    digest := s.digest.beginLink key bytes
    link := { s.link with service := service } }

end Sys2Proof.Machine
end

