-- ==== Sys2Proof/Machine/Measurement.lean ====
section
/-! DEFINITION. The chains, the event log and the stage (R29 to R36, R42). -/

namespace Sys2Proof.Machine

/-- The value of a chain (R32). -/
def Ism.chain (m : Ism) (i : Nat) : Bytes := (m.chains[i]?).getD zeroDigest

/-- An entry joins the log with the next sequence number and its chain is extended by its event digest, as one event (R35). -/
def Ism.append (chain : Nat) (kind : LogKind) (eventDigest : Bytes) (source : Option Nat) (tag : Bytes) (m : Ism) : Ism :=
  { m with
    log := m.log ++ [⟨m.log.length, chain, kind, eventDigest, m.stage, source, tag⟩]
    chains := m.chains.setIfInBounds chain (extendChain (m.chain chain) eventDigest) }

/-- The stage is raised: the stage after the advance is the one its stage mark carries, which extends chain 1 (R30, R31). -/
def Ism.advance (target : Stage) (m : Ism) : Ism :=
  ({ m with stage := target } : Ism).append 1 .stageMark
    (sha256 [byteOf m.stage.number, byteOf target.number]) none []

/-- The highest stage at which a request may extend a chain; none for chains 0 and 1, which are the part's (R33). -/
def extendWindow : Nat → Option Stage
  | 2 => some .loader
  | 3 => some .kernel
  | 4 => some .system
  | 5 | 6 | 7 => some .services
  | _ => none

/-- Steps 2 to 4 of the checks of a request extend (R37). -/
def checkExtend (chain : Nat) (m : Ism) : Checked Unit := do
  let window ← match extendWindow chain with
    | some w => Except.ok w
    | none => .error .chainReserved
  check (decide (m.stage.number ≤ window.number)) .stageClosed
  check (decide (m.log.length < 36)) .logFull

end Sys2Proof.Machine
end

