-- ==== Sys2Proof/Machine/FlashReader.lean ====
section
/-! DEFINITION. The Flash Reader's list: joining, starting, bursts and cancelling (R48 to R51, R54). What becomes of a job's outcome is
in JobEnd.lean. -/

namespace Sys2Proof.Machine

/-- The entries in use: the job in progress and the jobs that wait (R48). -/
def FlashReader.entries (r : FlashReader) : List Job := r.current.toList ++ r.waiting

/-- An entry is free for a purpose: four in all, at most one IMAGE_VERIFY and three SCAN (R48). -/
def FlashReader.hasRoom (purpose : Purpose) (r : FlashReader) : Bool :=
  decide (r.entries.length < 4) &&
    match purpose with
    | .bootMeasure => true
    | .imageVerify => r.entries.all fun j => j.purpose != .imageVerify
    | .scan => decide ((r.entries.filter fun j => j.purpose == .scan).length < 3)

/-- A requester's jobs join the list in its own order, as far as entries are free; the rest stay unplaced (R49, R191). -/
def placeAll : List Job → FlashReader → List Job × FlashReader
  | [], r => ([], r)
  | j :: rest, r =>
    if r.hasRoom j.purpose then placeAll rest { r with waiting := r.waiting ++ [j] } else (j :: rest, r)

/-- Each requester places what it has not placed, as far as entries are free (R49). -/
def refill (s : State) : State :=
  let (measure, r) := placeAll s.gate.unplaced s.reader
  let (image, r) := placeAll s.image.unplaced.toList r
  let (scan, r) := placeAll ((s.gate.scanRound.map (·.unplaced)).getD []) r
  { s with
    reader := r
    gate := { s.gate with
      unplaced := measure, scanRound := s.gate.scanRound.map fun round => { round with unplaced := scan } }
    image := { s.image with unplaced := image.head? } }

/-- The waiting job of highest class, and within a class of earliest arrival (R50). -/
def FlashReader.next (r : FlashReader) : Option Job :=
  (r.waiting.find? fun j => j.purpose == .bootMeasure).or <|
    (r.waiting.find? fun j => j.purpose == .imageVerify).or (r.waiting.find? fun j => j.purpose == .scan)

/-- With no job in progress, the reader starts the next waiting job (R50). -/
def FlashReader.start (r : FlashReader) : FlashReader :=
  match r.current, r.next with
  | none, some j => ⟨r.waiting.erase j, some j, false, false, [], none⟩
  | _, _ => r

/-- Unplaced jobs join as entries are free, and an idle reader starts a job. -/
def pump (s : State) : State :=
  let s := refill s
  { s with reader := s.reader.start }

/-- The job is read for its manifest: IMAGE_VERIFY without an expected digest (R53). -/
def Job.isManifest (j : Job) : Bool := j.purpose == .imageVerify && j.expected.isNone

/-- The number of bytes of the next burst (R51). -/
def Job.burst (j : Job) : Nat := min 256 j.remaining

/-- The current address of a job: the address of its next burst (R51). -/
def Job.address (j : Job) : Nat := j.start + (j.length - j.remaining)

/-- A burst is ready to start: a claim at the Flash Port (R51). -/
def State.burstReady (s : State) : Bool :=
  match s.reader.current with
  | some j => !s.reader.cancelled && !s.reader.bursting && decide (0 < j.remaining) && s.digest.reader.drained
  | none => false

/-- The job in progress is removed and the READER context cleared; its entry frees (R52, R54). -/
def dropCurrent (s : State) : State :=
  { s with
    reader := { s.reader with current := none, bursting := false, cancelled := false, buffer := [], signedLength := none }
    digest := s.digest.clear .reader }

/-- Jobs of a purpose are cancelled: waiting jobs at once, and the job in progress at once or with the burst being read (R54). -/
def cancelJobs (purpose : Purpose) (s : State) : State :=
  let s := { s with reader := { s.reader with waiting := s.reader.waiting.filter fun j => j.purpose != purpose } }
  match s.reader.current with
  | some j =>
    if j.purpose = purpose then
      if s.reader.bursting then { s with reader := { s.reader with cancelled := true } } else dropCurrent s
    else s
  | none => s

end Sys2Proof.Machine
end

