-- ==== Sys2Proof/Machine/FlashPort.lean ====
section
/-! DEFINITION. The Flash Port: grants, the SoC's view of the flash, and protection (R55 to R61). -/

namespace Sys2Proof.Machine

/-- A forwarded PROGRAM or ERASE sets the flash busy mark at its end (R58). -/
def commandWrites : FlashCommand → Bool
  | .program _ | .erase _ _ | .eraseDevice => true
  | .read _ _ | .status | .other => false

/-- A SoC transaction waits at the port, ready to forward (R55). -/
def FlashPort.socWaiting (p : FlashPort) : Bool :=
  match p.soc with
  | some ⟨_, .waiting _⟩ => true
  | _ => false

/-- A reader burst is granted: nothing is being served, and while the SoC is not held no SoC transaction waits (R56). -/
def State.burstGranted (s : State) : Bool :=
  s.burstReady && s.port.side == .idle && (s.held || !s.port.socWaiting)

/-- A burst of the job in progress is granted and read from the job's current address (R51, R56). While the flash busy mark is set the port
first reads the flash status until it reports ready, so the mark is clear when the burst is read (R58, log entry 21). -/
def startBurst (s : State) : State :=
  match s.reader.current with
  | some j =>
    { s with
      reader := { s.reader with bursting := true }
      port := { s.port with side := .burst j.address j.burst, busy := false } }
  | none => s

/-- SOC_HOLD is asserted: a waiting transaction is discarded, a forwarded one is ended at the flash, and one that the port answers is
closed (R57, R65). A forwarded PROGRAM or ERASE so ended sets the flash busy mark (R58, log entry 31). -/
def FlashPort.endSoc (p : FlashPort) : FlashPort :=
  match p.soc with
  | some ⟨command, .forwarded _⟩ =>
    { p with soc := none, side := .idle, busy := p.busy || commandWrites command }
  | _ => { p with soc := none }

/-! ## The SoC's view (R59, R60) -/

/-- The areas of the SoC's address space in rising order, under the layout and the mapping of the release. Before the layout is written
every address maps to itself (R59). -/
def State.areas (s : State) : List Area :=
  match s.kept.layout, s.port.mapping with
  | some l, some m =>
    let size := l.bankSize
    let boot := match m.booted with
      | .bank bank => [⟨0, some size, .flash (bank.base size)⟩]
      | .recovery =>
        [⟨0, some (min l.recoverySize size), .flash (2 * size)⟩, ⟨min l.recoverySize size, some size, .fill⟩]
    boot ++ [⟨size, some (2 * size), .flash (m.staging.base size)⟩, ⟨2 * size, none, .flash (2 * size)⟩]
  | _, _ => [⟨0, none, .flash 0⟩]

/-- An area holds an address. -/
def Area.holds (a : Area) (address : Nat) : Bool :=
  decide (a.start ≤ address) && match a.stop with
    | some stop => decide (address < stop)
    | none => true

/-- The access an area answers an address with, for a number of bytes (R59). -/
def Area.access (a : Area) (address length : Nat) : FlashAccess :=
  match a.target with
  | .flash base => .read (base + (address - a.start)) length
  | .fill => .fill length

/-- The part of a READ that lies in an area: none where it does not reach the area (R60). -/
def Area.part (address length : Nat) (a : Area) : Option FlashAccess :=
  let first := max address a.start
  let last := match a.stop with
    | some stop => min (address + length) stop
    | none => address + length
  if first < last || a.holds address then some (a.access first (last - first)) else none

/-- The accesses a READ is made of, one for each area it touches, in order of address (R60). -/
def State.readAccesses (s : State) (address length : Nat) : List FlashAccess :=
  s.areas.filterMap (Area.part address length)

/-- The physical address of a SoC address (R59); no PROGRAM or ERASE that is forwarded lies in the filled area (R61). -/
def State.physical (s : State) (address : Nat) : Nat :=
  match s.areas.find? (·.holds address) with
  | some ⟨start, _, .flash base⟩ => base + (address - start)
  | _ => address

/-- What the port issues to the flash for a transaction (R55, R59, R60). -/
def State.accesses (s : State) : FlashCommand → List FlashAccess
  | .read address length => s.readAccesses address length
  | .program address => [.command (s.physical address)]
  | .erase address _ => [.command (s.physical address)]
  | .eraseDevice | .status | .other => [.plain]

/-- Every byte of a READ is filled by the port, so that it does not reach the flash (R59). -/
def onlyFill (accesses : List FlashAccess) : Bool :=
  !accesses.isEmpty && accesses.all fun a => match a with
    | .fill _ => true
    | _ => false

/-! ## Protection (R61) -/

/-- The staging view is protected while the staged state is VERIFYING, VERIFIED, ARMED or TRIAL (R61, R96). -/
def Staged.protects : Staged → Bool
  | .none | .rejected _ _ _ => false
  | .verifying | .verified _ _ | .armed _ _ | .trial _ _ => true

/-- The affected range of a PROGRAM or ERASE: its first SoC address and the address after its last; none for a whole-device erase
(R55). -/
def commandRange : FlashCommand → Option (Nat × Nat)
  | .program address => some (address / 256 * 256, address / 256 * 256 + 256)
  | .erase address size => some (address / size * size, address / size * size + size)
  | _ => none

/-- Two ranges share an address. -/
def overlaps (a b : Nat × Nat) : Bool := decide (max a.1 b.1 < min a.2 b.2)

/-- A PROGRAM or ERASE touches a protected area: the boot view, the recovery region, or the staging view while it is protected. Nothing
is protected before the layout is written (R61). -/
def State.protectedTouch (s : State) (command : FlashCommand) : Bool :=
  commandWrites command && match s.kept.layout with
    | none => false
    | some l =>
      match commandRange command with
      | none => true
      | some range =>
        overlaps range (0, l.bankSize) ||
          (s.kept.staged.protects && overlaps range (l.bankSize, 2 * l.bankSize)) ||
          overlaps range (2 * l.bankSize, 2 * l.bankSize + l.recoverySize)

end Sys2Proof.Machine
end

