-- ==== Sys2Proof/Machine/Staged.lean ====
section
/-! DEFINITION. The staged record's rejection, shared by the Boot Gate and Image Acceptance (R95, R105, R106). -/

namespace Sys2Proof.Machine

/-- The fields of a staged record that are stored in it (R95). -/
def Staged.fields : Staged → Option ImageFields
  | .none | .verifying => Option.none
  | .verified f _ | .armed f _ | .trial f _ => some f
  | .rejected f _ _ => f

/-- The candidate set of a staged record, where present (R95). -/
def Staged.candidate : Staged → Option (List Region)
  | .verified _ c | .armed _ c | .trial _ c => c
  | .none | .verifying | .rejected _ _ _ => Option.none

/-- The segment progress that a staged record stores (R95). -/
def Staged.progress : Staged → Nat
  | .none | .verifying => 0
  | .verified f _ | .armed f _ | .trial f _ => f.segments
  | .rejected _ p _ => p

/-- The fields known to the verification in progress: those of a manifest that has passed the layout check (R99). -/
def ImageUnit.knownFields (u : ImageUnit) : Option ImageFields :=
  u.verification.bind fun v => v.manifest.map (·.fields)

/-- The segment progress of the verification in progress (R95, R98). -/
def ImageUnit.progress (u : ImageUnit) : Nat := (u.verification.map (·.progress)).getD 0

/-- An operation of image origin (R23). -/
def EngineOp.isVerify : EngineOp → Bool
  | .verify _ _ _ _ => true
  | .sign _ _ _ => false

/-- The verification is stopped: its deadline and record are closed, its job is cancelled and its operation discarded
(R105, R109, R24, R54). -/
def stopVerification (s : State) : State :=
  pump (cancelJobs .imageVerify
    { s with
      image := ⟨none, none⟩
      engine := s.engine.filter fun op => !op.isVerify })

/-- A rejection: the verification is stopped and the staged record is written REJECTED with the fields known and the progress
reached (R105). Of a stalled record, whose verification is closed, no state holds what was known and reached: it is rejected with no fields
and progress 0, a point that R95, R105 and R106 leave open: the model's choice (log entry 41). -/
def reject (reason : RejectReason) (s : State) : State :=
  (stopVerification s).handOver (.stagedPut (.rejected s.image.knownFields s.image.progress reason)) .silent

end Sys2Proof.Machine
end

