-- ==== Sys2Proof/Machine/BootGate.lean ====
section
/-! DEFINITION. The Boot Gate: the start of measurement, failed attempts and attachment (R66, R67, R77 to R79, R83, R85). -/

namespace Sys2Proof.Machine

/-! ## Orphaned work (R182, R175) -/

/-- The request that made a write has been dropped: the write goes to its end and nothing is answered (R182). Of a KEY IMPORT dropped between
its two writes the new slot stands and the count write of the unwrapping slot is never made, a point on which R19 is silent: the model's
choice (log entry 36). -/
def After.orphaned : After → After
  | .reply _ | .replyKeyInfo _ | .replyBlob _ _ | .replyCounted _ _ _ | .replyIndex _ | .replyConfirm _ | .countUnwrap _ _
  | .compare _ _ _ _ | .accept _ => .silent
  | .resetDone _ => .resetDone false
  | .silent => .silent
  | .reactionWrite hold => .reactionWrite hold
  | .trialSelected => .trialSelected
  | .decayed index => .decayed index

def StoreItem.orphaned (item : StoreItem) : StoreItem := { item with after := item.after.orphaned }

/-- Writes and updates already begun complete and stand; their replies are dropped (R183). -/
def StoreUnit.orphaned (u : StoreUnit) : StoreUnit :=
  ⟨u.making.map StoreItem.orphaned, u.waiting.map StoreItem.orphaned⟩

/-! ## The start of measurement -/

/-- The link's release cycle: the request in service and the reply are dropped, the link is IDLE and every flag is clear. The LINK
context, the vault and a write held back for the request are released with it (R175, R46, R146). A count write of a statement or another use
that an owner reset's update holds back is discarded so, and the use is never counted: R121's table and R144 leave it open, and it is the
model's choice (log entry 55). -/
def releaseCycle (s : State) : State :=
  { s with
    link := { s.link with state := .idle, request := none, service := .none, reply := none, flags := 0 }
    store := s.store.orphaned
    digest := s.digest.clear .link
    vault := s.vault.releaseRequest
    keys := { s.keys with held := none } }

/-- The neighbours' part in a start of measurement, beside the link's and Image Acceptance's (R67, R7, R24, R42, R54, R57, R156, R162). -/
def clearBoot (s : State) : State :=
  { s with
    ism := ismAtStart
    keys := { s.keys with suspended := Vector.replicate 24 false }
    engine := []
    reactions := { s.reactions with fired := Vector.replicate 8 false }
    biu := { s.biu with
      window := none, reaction := Source.absent, presence := Source.absent, host := Source.absent }
    port := s.port.endSoc }

/-- The Boot Gate's own volatile state at a start of measurement; bank selection is then awaited (R67, R68). -/
def BootGate.begin (shortPress : Bool) (g : BootGate) : BootGate :=
  { g with
    state := .measuring
    attach := none
    complete := none
    dwell := none
    reboot := none
    silence := none
    rebootPending := false
    recovery := false
    audit := false
    scanTimer := none
    scanRound := none
    selection := .awaiting shortPress false }

/-- The IMAGE_VERIFY and SCAN jobs are cancelled, and what is not placed of them is discarded (R54, R87, R106). The verification deadline
is stopped with its job and operation (log entry 14). -/
def cancelAtStart (s : State) : State :=
  cancelJobs .scan (cancelJobs .imageVerify
    { s with
      image := { s.image with
        unplaced := none, verification := s.image.verification.map fun v => { v with deadline := none } } })

/-- A write or update on the lifecycle, the staged record, the bank selector or RECOVERY_NEXT, which bank selection waits for (R68). -/
def StoreOp.gates : StoreOp → Bool
  | .recoveryNext _ | .stagedPut _ | .arm _ | .disarm | .trialTry | .confirmBoot | .confirmLine _ | .lock => true
  | _ => false

/-- No write that bank selection waits for is begun and not ended (R68). -/
def State.gateWritesDone (s : State) : Bool := s.begun.all fun item => !item.op.gates

/-- Image Acceptance's step of a start of measurement, taken once every write it waits for has ended: a record found VERIFYING is
rejected with INTERRUPTED (R67, R68, R106). -/
def interruptStep (s : State) : State :=
  match s.gate.selection with
  | .awaiting shortPress false =>
    if s.gateWritesDone then
      let t := { s with gate := { s.gate with selection := .awaiting shortPress true } }
      if s.kept.staged = .verifying then reject .interrupted t else stopVerification t
    else s
  | _ => s

/-- The start of measurement, as one event (R67). -/
def startOfMeasurement (shortPress : Bool) (s : State) : State :=
  let s := cancelAtStart (clearBoot (releaseCycle s))
  interruptStep (pump { s with gate := s.gate.begin shortPress })

/-! ## Before and after the release -/

/-- A deadline of some milliseconds from now (R181). -/
def State.inMs (s : State) (ms : Nat) : Option Nat := some (s.uptime + ms)

/-- A deadline of some seconds from now (R181). -/
def State.inSeconds (s : State) (seconds : Nat) : Option Nat := s.inMs (1000 * seconds)

/-- The SoC runs: RELEASED, ATTACHED or RUNNING. -/
def State.socRuns (s : State) : Bool := !s.held

/-- HOLD_SOC: a start of measurement where the SoC runs, and nothing where it is held (R83). -/
def holdSoc (s : State) : State := if s.socRuns then startOfMeasurement false s else s

/-- The silence watch is set to the limit in force, or stopped where that is OFF (R85). -/
def State.silenceDeadline (s : State) : Option Nat :=
  if s.kept.params.silenceLimit = 0 then none else s.inSeconds s.kept.params.silenceLimit

/-- The Boot Gate after an admitted frame: it attaches the SoC in RELEASED, and restarts the silence watch in RUNNING (R77, R85,
R170). -/
def State.admittedGate (s : State) : BootGate :=
  match s.gate.state with
  | .released =>
    { s.gate with state := .attached, attach := none, complete := s.inSeconds s.kept.params.completeLimit }
  | .running => { s.gate with silence := s.silenceDeadline }
  | _ => s.gate

/-- A frame is admitted (R170). -/
def admitFrame (s : State) : State := { s with gate := s.admittedGate }

/-- The booted set is the trial bank's candidate set (R71). -/
def BootGate.trialBooted (g : BootGate) : Bool :=
  match g.booted with
  | some b => b.trial
  | none => false

/-- FAULT_HOLD: the SoC is held with every timer stopped (R79, R80). -/
def enterFaultHold (s : State) : State :=
  { s with
    gate := { s.gate with
      state := .faultHold, attach := none, complete := none, dwell := none, silence := none, reboot := none,
      rebootPending := false, scanTimer := none }
    port := s.port.endSoc }

/-- A failed boot attempt (R79): a trial starts a new measurement at once; otherwise the first and second failure hold the SoC for a
dwell of 100 ms, and the third holds it for good. -/
def failAttempt (s : State) : State :=
  let s := { s with gate := { s.gate with attach := none, complete := none } }
  if s.gate.trialBooted then startOfMeasurement false s
  else if s.gate.failures + 1 < 3 then
    { s with
      gate := { s.gate with state := .measuring, failures := s.gate.failures + 1, dwell := s.inMs 100 }
      port := s.port.endSoc }
  else enterFaultHold { s with gate := { s.gate with failures := 3 } }

/-- A deadline or SOC_RESTART before RUNNING: a failed attempt, or the pending reboot (R79, R82). -/
def failOrReboot (s : State) : State :=
  if s.gate.rebootPending then startOfMeasurement false s else failAttempt s

/-- A source that has something to scan runs its timer from an entry to RUNNING, or from a change of SCAN_PERIOD (R86). -/
def State.startScanTimer (s : State) : Option ScanTimer :=
  if 0 < s.kept.params.scanPeriod ∧ s.gate.booted.isSome then
    some ⟨s.kept.params.scanPeriod, s.uptime + 60000 * s.kept.params.scanPeriod⟩
  else none

/-- The new stage is handed to the Boot Gate: SYSTEM or SERVICES takes it from ATTACHED to RUNNING (R78). -/
def stageReached (stage : Stage) (s : State) : State :=
  if s.gate.state = .attached ∧ 2 ≤ stage.number then
    { s with gate := { s.gate with
        state := .running, complete := none, failures := 0, silence := s.silenceDeadline,
        scanTimer := s.startScanTimer } }
  else s

end Sys2Proof.Machine
end

