-- ==== Sys2Proof/Machine/Indicator.lean ====
section
/-! DEFINITION. The presence window and the sources of IND (R149 to R156). -/

namespace Sys2Proof.Machine

/-- A number rounded down to a multiple of ten. -/
def floorTen (n : Nat) : Nat := n / 10 * 10

/-- A number clamped to a range: one outside it is replaced by the nearest end (00_scope.md, "Clamped"). -/
def clamp (low high n : Nat) : Nat := max low (min high n)

/-- A pattern as taken from the values given (R152). -/
def Pattern.taken (p : Pattern) : Pattern :=
  let period := clamp 50 5000 (floorTen p.period)
  ⟨period, min period (floorTen p.onTime), p.repeats⟩

/-- A generating source begins a pattern at a moment (R153). -/
def Pattern.begun (p : Pattern) (now : Nat) : Generating := ⟨p, p.repeats, now⟩

/-- A source is given a pattern: an absent source takes it at once, a generating one stages it (R153). -/
def Source.give (now : Nat) (p : Pattern) (source : Source) : Source :=
  match source.current with
  | none => ⟨some (p.begun now), none⟩
  | some _ => { source with staged := some p }

/-- The end of a period (R153): a staged pattern is taken; a continuous one goes on; otherwise a repeat is counted. The next period
starts where this one ends. -/
def Source.periodEnd (source : Source) : Source :=
  match source.current with
  | none => source
  | some g =>
    let moment := g.start + g.pattern.period
    match source.staged with
    | some p => ⟨some (p.begun moment), none⟩
    | none =>
      if g.pattern.repeats = 0 then { source with current := some { g with start := moment } }
      else if 1 < g.remaining then
        { source with current := some { g with remaining := g.remaining - 1, start := moment } }
      else Source.absent

/-- The period of a generating source has ended (R153). -/
def Source.periodOver (now : Nat) (source : Source) : Bool :=
  match source.current with
  | some g => decide (g.start + g.pattern.period ≤ now)
  | none => false

def Biu.withSource (b : Biu) (which : IndSource) (source : Source) : Biu :=
  match which with
  | .reaction => { b with reaction := source }
  | .presence => { b with presence := source }
  | .host => { b with host := source }

/-- Policy pattern `number`, 1..4 (R147). -/
def Records.pattern (r : Records) (number : Nat) : Pattern := (r.patterns[number - 1]?).getD ⟨50, 0, 0⟩

/-- The pattern of the presence source: policy pattern 3 as continuous, whatever its repeat count (R155). -/
def Records.presencePattern (r : Records) : Pattern := { r.pattern 3 with repeats := 0 }

/-- The window closes at once, and the presence source becomes absent with its staged pattern (R150). -/
def closeWindow (s : State) : State :=
  { s with biu := { s.biu with window := none, presence := Source.absent } }

/-- The window is opened, or its closing time moved out, to 30 s from now; a window that was closed gives the presence source its
pattern (R149). -/
def openWindow (s : State) : State :=
  { s with biu := { s.biu with
      window := some (s.uptime + 30000)
      presence := if s.biu.window.isSome then s.biu.presence
        else s.biu.presence.give s.uptime s.kept.presencePattern } }

/-- The window is open: the check that a vault request makes last (R129). -/
def State.present (s : State) : Bool := s.biu.window.isSome

end Sys2Proof.Machine
end

