-- ==== Sys2Proof/Machine/Reaction.lean ====
section
/-! DEFINITION. The Reaction Table: a condition event and the actions it hands on (R160, R161). -/

namespace Sys2Proof.Machine

/-- Entry `i` matches a condition event that carries a failure count (R160). -/
def State.entryMatches (s : State) (condition : Condition) (count i : Nat) : Bool :=
  match s.kept.reactions[i]?, s.reactions.fired[i]? with
  | some e, some fired =>
    e.enabled && e.condition == condition && (condition != .penaltyLevel || e.threshold == some count) &&
      (!e.once || !fired)
  | _, _ => false

/-- The matching entries, in index order (R160). -/
def State.matching (s : State) (condition : Condition) (count : Nat) : List Nat :=
  (List.range 8).filter (s.entryMatches condition count)

/-- The actions of some entries, in entry order (R160). -/
def State.actionsOf (s : State) (entries : List Nat) : List Action :=
  entries.filterMap fun i => (s.kept.reactions[i]?).map (·.action)

/-- Entry `i` fires at most once per release (R158). -/
def State.entryOnce (s : State) (i : Nat) : Bool :=
  match s.kept.reactions[i]? with
  | some e => e.once
  | none => false

/-- Firing entries: the mark of a once-entry is set and each fire count rises (R160). -/
def markFired (entries : List Nat) (s : State) : State :=
  { s with reactions :=
    { fired := s.reactions.fired.mapIdx fun i mark => mark || (entries.contains i && s.entryOnce i)
      counts := s.reactions.counts.mapIdx fun i n => if entries.contains i then saturating 255 n else n } }

/-- The pattern number of a SHOW_PATTERN (R158). -/
def Action.patternNumber : Action → Option Nat
  | .showPattern number => some number
  | _ => none

/-- The identity set of a SUSPEND_SLOTS; empty for another action (R158). -/
def Action.identitySet : Action → Byte
  | .suspendSlots identities => identities
  | _ => 0

/-- SHOW_PATTERN of one event: the reaction source is given the pattern of the highest-numbered entry (R155, R161). -/
def showPattern (actions : List Action) (s : State) : State :=
  match (actions.filterMap Action.patternNumber).getLast? with
  | some number =>
    { s with biu := { s.biu with reaction := s.biu.reaction.give s.uptime (s.kept.pattern number) } }
  | none => s

/-- The union of the identity sets of one event's SUSPEND_SLOTS (R161). -/
def suspendSet (actions : List Action) : Byte :=
  actions.foldl (fun set action => set ||| action.identitySet) 0

/-- Slot `i` is ACTIVE and its answer set meets a set (R7). -/
def Records.slotMeets (r : Records) (set : Byte) (i : Nat) : Bool :=
  match r.slot i with
  | some slot => slot.state == .active && meets slot.answerSet set
  | none => false

/-- Every ACTIVE slot whose answer set meets the set becomes suspended (R7). -/
def suspendSlots (set : Byte) (s : State) : State :=
  { s with keys := { s.keys with suspended := s.keys.suspended.mapIdx fun i mark => mark || (s.kept.slotMeets set i) } }

/-- An owner reset from the table waits for the vault, merged with one from the table that waits already (R145). It is not merged with an
OWNER RESET request that waits, whose checks are still to be made: R143 and R145 leave that open, and it is the model's choice (log entry
56). -/
def awaitReset (s : State) : State :=
  if s.vault.waiting.contains .reset then s
  else { s with vault := { s.vault with waiting := s.vault.waiting ++ [.reset] } }

/-- The Boot Gate's actions of one event. RECOVERY_NEXT is written before a HOLD_SOC of the same event is taken, which then follows the
end of the write (R161, R83, log entry 16). -/
def gateActions (actions : List Action) (s : State) : State :=
  if actions.contains .recoveryNext then
    s.handOver (.recoveryNext true) (.reactionWrite (actions.contains .holdSoc && s.socRuns))
  else if actions.contains .holdSoc then holdSoc s
  else s

/-- The actions of one event are handed to their owners; a HOLD_SOC is carried out after the others (R161). -/
def handActions (actions : List Action) (s : State) : State :=
  let s := suspendSlots (suspendSet actions) (showPattern actions s)
  gateActions actions (if actions.contains .ownerReset then awaitReset s else s)

/-- A condition event, carrying a failure count for PENALTY_LEVEL: every matching entry fires, REACTION is raised once, and the actions
are handed on; an event that matches no entry changes nothing (R160). -/
def fire (condition : Condition) (count : Nat) (s : State) : State :=
  match s.matching condition count with
  | [] => s
  | entries => handActions (s.actionsOf entries) ((markFired entries s).raise .reaction)

end Sys2Proof.Machine
end

