-- ==== Sys2Proof/Machine/Selection.lean ====
section
/-! DEFINITION. Bank selection, boot measurement and release (R68 to R76). -/

namespace Sys2Proof.Machine

/-! ## Release (R76) -/

/-- The mapping of a release: the selected bank, and for the staging view the other bank or, in RECOVERY, the bank that the bank
selector does not name (R59). -/
def State.releaseMapping (s : State) : Mapping :=
  match s.gate.selected with
  | some (.bank bank) => ⟨.bank bank, bank.other⟩
  | some .recovery => ⟨.recovery, s.inactiveBank⟩
  | none => ⟨.bank .a, .b⟩

/-- The release (R76). A staged record that it still finds VERIFYING is rejected with ABORTED_BY_RELEASE (R106). -/
def release (s : State) : State :=
  let t := { s with
    gate := { s.gate with
      state := .released, releaseCount := (s.gate.releaseCount + 1) % 64,
      attach := s.inSeconds s.kept.params.attachLimit }
    port := { s.port with mapping := some s.releaseMapping } }
  if s.kept.staged = .verifying then reject .abortedByRelease t else t

/-! ## Measurement (R72 to R74) -/

/-- The end of a measurement (R74): release; or with a mismatch a noted release under AUDIT, a failed trial attempt, or FAULT_HOLD. -/
def measurementEnd (s : State) : State :=
  match s.gate.verdict with
  | .mismatch _ =>
    if s.kept.params.bootPolicy = .audit then
      release (fire .bootMismatch 0 (State.raise .bootNote { s with gate := { s.gate with audit := true } }))
    else if s.gate.trialBooted then startOfMeasurement false s
    else enterFaultHold (fire .bootMismatch 0 s)
  | _ => release s

/-- One job for each region with a mark, in set order, named by the region's index (R72, R87). -/
def regionJobs (purpose : Purpose) (marked : Region → Bool) (regions : List Region) : List Job :=
  regions.zipIdx.filterMap fun (r, i) =>
    if marked r then some ⟨purpose, r.start, r.length, r.length, some r.digest, i⟩ else none

/-- The selected bank is measured: its booted set and verdict are set and its jobs are placed (R71, R72). A selection without a job ends
its measurement at once (log entry 23). -/
def measure (selected : BootBank) (booted : Option BootedSet) (verdict : Verdict) (jobs : List Job) (s : State) : State :=
  let t := pump { s with gate := { s.gate with
    selected := some selected, booted := booted, verdict := verdict, unplaced := jobs, jobsLeft := jobs.length,
    selection := .idle } }
  if jobs.isEmpty then measurementEnd t else t

/-- A set of regions of a bank is measured (R72). -/
def measureSet (bank : Bank) (set : BootedSet) (s : State) : State :=
  measure (.bank bank) (some set) .matched (regionJobs .bootMeasure (·.measure) set.regions) s

/-- Step 5, and step 4 after its rejection: the active bank with its golden set, which is valid in FIELD (R68, R71). -/
def selectActive (s : State) : State :=
  let bank := s.kept.selector.active
  let golden := s.kept.golden bank
  if golden.valid then measureSet bank ⟨golden.regions, golden.epoch, golden.build, false⟩ s
  else measure (.bank bank) none .matched [] s

/-- Step 3 after its write: the trial bank with the candidate set (R70, R71). -/
def selectTrial (s : State) : State :=
  match s.kept.staged.fields, s.kept.staged.candidate with
  | some f, some regions => measureSet s.inactiveBank ⟨regions, f.epoch, f.build, true⟩ s
  | _, _ => selectActive s

/-- Step 2: RECOVERY_NEXT is cleared in a store write, RECOVERY is set, and the recovery region is measured as a whole (R69, R72). -/
def selectRecovery (s : State) : State :=
  let t := s.handOver (.recoveryNext false) .silent
  measure .recovery none .recovery
    [⟨.bootMeasure, 2 * s.bankSize, s.recoverySize, s.recoverySize, none, 0⟩]
    { t with gate := { t.gate with recovery := true } }

/-- Step 1: in MANUFACTURE bank A is released at once without measurement, with AUDIT set (R75, R71). -/
def selectManufacture (s : State) : State :=
  let golden := s.kept.goldenA
  release { s with gate := { s.gate with
    selected := some (.bank .a)
    booted := if golden.valid then some ⟨golden.regions, golden.epoch, golden.build, false⟩ else none
    verdict := .unmeasured
    audit := true
    selection := .idle } }

/-- Step 4: the trial ends, the staged record is rejected with TRIAL_FAILED, and the active bank is selected (R70, R111). -/
def trialFallback (s : State) : State :=
  selectActive (fire .trialFallback 0
    (s.handOver (.stagedPut (.rejected s.kept.staged.fields s.kept.staged.progress .trialFailed)) .silent))

/-- The staged state is ARMED or TRIAL (R68). -/
def Staged.onTrial : Staged → Bool
  | .armed _ _ | .trial _ _ => true
  | _ => false

/-- Steps 3 to 5 (R68). The trial selection waits for its write (R70). -/
def selectBank (s : State) : State :=
  if s.kept.staged.onTrial then
    if 0 < s.kept.selector.tries then
      State.handOver .trialTry .trialSelected { s with gate := { s.gate with selection := .trialWrite } }
    else trialFallback s
  else selectActive s

/-- Recovery is asked for: by RECOVERY_NEXT, by a short press in FAULT_HOLD, or by BTN pressed at this moment; and R is above 0 (R68). -/
def State.wantsRecovery (s : State) (shortPress : Bool) : Bool :=
  (s.kept.recoveryNext || shortPress || s.biu.button == .pressed) && decide (0 < s.recoverySize)

/-- Bank selection takes the first step whose condition holds; RECOVERY_NEXT with no recovery region is cleared (R68). -/
def select (shortPress : Bool) (s : State) : State :=
  if s.kept.lifecycle = .manufacture then selectManufacture s
  else if s.wantsRecovery shortPress then selectRecovery s
  else selectBank (if s.kept.recoveryNext then s.handOver (.recoveryNext false) .silent else s)

/-- Bank selection can be taken: Image Acceptance has taken its step, every write it waits for has ended, and the button is determined
(R68, R148). -/
def State.selectable (s : State) : Bool :=
  match s.gate.selection with
  | .awaiting _ true => s.gateWritesDone && s.biu.button != .undetermined
  | _ => false

/-- Bank selection (R68). -/
def selectNow (s : State) : State :=
  match s.gate.selection with
  | .awaiting shortPress _ => select shortPress s
  | _ => s

/-! ## The end of a measurement job (R73) -/

/-- The log entry of a measurement job: RECOVERY_MARK, or BOOT_REGION tagged with the region's index (R73). -/
def recordMeasurement (j : Job) (measured : Bytes) (s : State) : State :=
  if s.gate.selected = some .recovery then
    { s with ism := s.ism.append 0 .recoveryMark measured none [] }
  else { s with ism := s.ism.append 0 .bootRegion measured none [byteOf j.index] }

/-- A job with an expected digest matches when the measured digest equals it (R52). -/
def Job.matches (j : Job) (measured : Bytes) : Bool :=
  match j.expected with
  | some d => measured == d
  | none => true

/-- The first mismatching region is kept in the verdict (R73). -/
def judge (j : Job) (measured : Bytes) (verdict : Verdict) : Verdict :=
  if verdict = .matched ∧ !j.matches measured then .mismatch j.index else verdict

/-- A measurement job has ended: it is recorded, then judged; the last one ends the measurement (R73, R74). -/
def measurementJobDone (j : Job) (measured : Bytes) (s : State) : State :=
  let s := recordMeasurement j measured s
  let s := { s with gate := { s.gate with
    verdict := judge j measured s.gate.verdict, jobsLeft := s.gate.jobsLeft - 1 } }
  if s.gate.jobsLeft = 0 then measurementEnd s else s

end Sys2Proof.Machine
end

