-- ==== Sys2Proof/Machine/Scan.lean ====
section
/-! DEFINITION. The background scan (R86 to R88). -/

namespace Sys2Proof.Machine

/-- A round has ended: it is counted, with the uptime second of its completion (R88). -/
def roundDone (s : State) : State :=
  { s with gate := { s.gate with
      scanRound := none
      scanRecord := { s.gate.scanRecord with
        rounds := saturating 65535 s.gate.scanRecord.rounds, lastRound := some s.second } } }

/-- The scan jobs of the booted set, in set order (R87). -/
def State.scanJobs (s : State) : List Job :=
  match s.gate.booted with
  | some b => regionJobs .scan (·.scan) b.regions
  | none => []

/-- A scan round is started, or skipped while one is in progress (R87). -/
def startRound (s : State) : State :=
  match s.gate.scanRound with
  | some _ =>
    { s with gate := { s.gate with
        scanRecord := { s.gate.scanRecord with skips := saturating 255 s.gate.scanRecord.skips } } }
  | none =>
    if s.scanJobs.isEmpty then roundDone s
    else pump { s with gate := { s.gate with scanRound := some ⟨s.scanJobs.length, s.scanJobs, false⟩ } }

/-- The next expiry falls one period later, under the SCAN_PERIOD now held; a period of 0 stops the timer (R86). -/
def nextScan (timer : ScanTimer) (period : Nat) : Option ScanTimer :=
  if 0 < period then some ⟨period, timer.next + 60000 * period⟩ else none

/-- The scan timer has expired (R86). -/
def State.scanDue (s : State) : Bool := reached (s.gate.scanTimer.map (·.next)) s.uptime

/-- The scan timer expires (R87). With SCAN_PERIOD 0 the timer is stopped from this expiry on, while the round that it starts still goes on;
R86 stops it "after that expiry's round" and leaves the moment open: the model's choice (log entry 39). -/
def scanExpiry (s : State) : State :=
  startRound { s with gate := { s.gate with
    scanTimer := s.gate.scanTimer.bind fun timer => nextScan timer s.kept.params.scanPeriod } }

/-- A mismatch is recorded with its region, release and uptime second; the round's first raises SCAN_MISMATCH and is a condition event
(R88). -/
def scanMismatch (j : Job) (first : Bool) (s : State) : State :=
  let s := { s with gate := { s.gate with
    scanRound := s.gate.scanRound.map fun round => { round with mismatched := true }
    scanRecord := { s.gate.scanRecord with lastMismatch := some ⟨j.index, s.gate.releaseCount, s.second⟩ } } }
  if first then s.raise .scanMismatch else s

/-- A job of the round has ended; its last one ends the round (R88). -/
def countScanJob (s : State) : State :=
  match s.gate.scanRound with
  | some round =>
    if round.left ≤ 1 then roundDone s
    else { s with gate := { s.gate with scanRound := some { round with left := round.left - 1 } } }
  | none => s

/-- A scan job has ended (R88). -/
def scanJobDone (j : Job) (measured : Bytes) (s : State) : State :=
  if j.matches measured then countScanJob s
  else
    let first := match s.gate.scanRound with
      | some round => !round.mismatched
      | none => false
    let s := countScanJob (scanMismatch j first s)
    if first then fire .scanMismatch 0 s else s

end Sys2Proof.Machine
end

