-- ==== Sys2Proof/Machine/Image.lean ====
section
/-! DEFINITION. Image Acceptance's verification: the manifest checks, the segments and the completion (R97 to R105). -/

namespace Sys2Proof.Machine

/-! ## The manifest (Formats, R98, R99) -/

/-- Byte `i` of a block. -/
def byteAt (i : Nat) (bytes : Bytes) : Byte := bytes.getD i 0

/-- Segment record `k` of a manifest block. -/
def segmentRecord (block : Bytes) (k : Nat) : Bytes := slice (16 + 48 * k) 48 block

/-- A segment record (Formats). -/
def readSegment (record : Bytes) : Segment :=
  ⟨number (slice 0 4 record), number (slice 4 4 record), byteAt 8 record, slice 16 32 record⟩

/-- The segment count of a manifest block (Formats). -/
def segmentCount (block : Bytes) : Nat := (byteAt 7 block).toNat

/-- The fields of a manifest block, with the manifest digest (R98, Formats). -/
def readManifest (block digest : Bytes) : Manifest where
  fields :=
    { line := (byteAt 5 block).toNat
      epoch := number (slice 8 2 block)
      build := number (slice 12 4 block)
      authority := (byteAt 6 block).toNat
      segments := segmentCount block }
  segments := (List.range (segmentCount block)).map fun k => readSegment (segmentRecord block k)
  digest := digest
  signature := slice (16 + 48 * segmentCount block) 64 block

/-- BOOT and SCAN of a segment's attributes (Formats). -/
def Segment.boot (g : Segment) : Bool := inSet g.attributes 0
def Segment.scanned (g : Segment) : Bool := inSet g.attributes 1

/-- No two of some ranges share an address. -/
def disjoint : List (Nat × Nat) → Bool
  | [] => true
  | r :: rest => (rest.all fun q => !overlaps r q) && disjoint rest

/-- The range of bank offsets that a segment covers. -/
def Segment.range (g : Segment) : Nat × Nat := (g.offset, g.offset + g.length)

/-- A segment's own part of the layout check (R99). -/
def Segment.wellFormed (bankSize : Nat) (g : Segment) : Bool :=
  decide (g.attributes.toNat < 4) && decide (0 < g.length) && decide (g.offset % 4096 = 0) &&
    decide (g.length % 4096 = 0) && decide (4096 ≤ g.offset) && decide (g.offset + g.length ≤ bankSize)

/-- The reserved bytes of a manifest block are zero (R99, Formats). -/
def reservedZero (block : Bytes) : Bool :=
  (slice 10 2 block).all (· == 0) &&
    (List.range (segmentCount block)).all fun k => (slice 9 7 (segmentRecord block k)).all (· == 0)

/-- The layout check of a manifest, whose segment count is to lie in 1..8 (R99). -/
def layoutHolds (bankSize : Nat) (block : Bytes) (m : Manifest) : Bool :=
  decide (1 ≤ m.segments.length) && decide (m.segments.length ≤ 8) &&
    slice 0 4 block == [0x52, 0x4B, 0x4D, 0x31] && byteAt 4 block == 1 && decide (m.fields.line ≤ 3) &&
    decide (m.fields.authority ≤ 23) && decide (m.fields.epoch ≤ 4095) && reservedZero block &&
    m.segments.all (·.wellFormed bankSize) && disjoint (m.segments.map (·.range)) &&
    (m.fields.line != 0 || m.segments.any (·.boot))

/-! ## The authority (R100) -/

/-- The public key of a slot, where its kind has one (R1). -/
def KeyMaterial.publicKey : KeyMaterial → Option Bytes
  | .pair _ k => some k
  | .verifyPublic k => some k
  | .secret _ => none
  | .blob _ => none

/-- Whether slot `i` is suspended (R7). -/
def State.suspended (s : State) (i : Nat) : Bool := (s.keys.suspended[i]?).getD false

/-- The public key of a manifest's authority slot, where the slot passes steps 2 to 7 of R10 for the requester (R100). -/
def State.authorityKey (s : State) (slot requester : Nat) : Option Bytes :=
  match s.kept.slot slot with
  | some k =>
    if k.state = .active ∧ inSet k.usage useAuthority ∧ inSet k.answerSet requester ∧ !s.suspended slot then
      k.material.publicKey
    else none
  | none => none

/-! ## The course of a verification -/

/-- A field of the verification record is changed, while one is open. -/
def updateVerification (f : Verification → Verification) (s : State) : State :=
  { s with image := { s.image with verification := s.image.verification.map f } }

/-- Image Acceptance places its one job (R98, R102). -/
def placeImageJob (j : Job) (s : State) : State := pump { s with image := { s.image with unplaced := some j } }

/-- The job that reads the manifest block of the inactive bank (R98). -/
def State.manifestJob (s : State) : Job :=
  ⟨.imageVerify, s.inactiveBank.base s.bankSize, 4096, 4096, none, 0⟩

/-- The job that reads a segment (R102). -/
def State.segmentJob (s : State) (index : Nat) (g : Segment) : Job :=
  ⟨.imageVerify, s.inactiveBank.base s.bankSize + g.offset, g.length, g.length, some g.digest, index⟩

/-- The acceptance of VERIFY STAGED (R97): the record is opened, the deadline starts, the manifest job is placed, and the reply is
STARTED. -/
def acceptVerification (requester : Nat) (s : State) : State :=
  let v : Verification := ⟨.manifestRead, requester, s.uptime, s.inMs 4000, none, 0, 0⟩
  answer .started [] (placeImageJob s.manifestJob { s with image := { s.image with verification := some v } })

/-- The manifest checks on the outcome of the manifest job (R98 to R100). -/
def manifestDone (block : Bytes) (digest : Option Bytes) (s : State) : State :=
  match s.image.verification, digest with
  | none, _ => s
  | some _, none => reject .badLayout s
  | some v, some d =>
    let m := readManifest block d
    if layoutHolds s.bankSize block m then
      let s := updateVerification (fun v => { v with manifest := some m }) s
      match s.authorityKey m.fields.authority v.requester with
      | none => reject .authorityUnusable s
      | some key =>
        let s := updateVerification (fun v => { v with phase := .signature }) s
        { s with engine := s.engine ++ [.verify m.fields.authority key m.digest m.signature] }
    else reject .badLayout s

/-- The counter of an image line (R94). -/
def Records.counter (r : Records) (line : Nat) : Nat := (r.counters[line]?).getD 0

/-- D, the time allowed for a manifest's segments, in ms (R101). -/
def Manifest.allowance (m : Manifest) : Nat := 4000 + 40 * ceilDiv ((m.segments.map (·.length)).sum) 65536

/-- A manifest is accepted: the deadline is re-set and the first segment is read (R101, R102). Where the verdict is taken first at the very
moment the first deadline runs out, R101 re-sets the deadline to a later moment, and R104 has a deadline run out after an outcome that places
the next job: that the re-set stands, with no TIMEOUT, is the model's choice (log entry 64). -/
def acceptManifest (m : Manifest) (s : State) : State :=
  let s := updateVerification
    (fun v => { v with phase := .segments, index := 0, deadline := some (v.acceptedAt + m.allowance) }) s
  match m.segments[0]? with
  | some g => placeImageJob (s.segmentJob 0 g) s
  | none => s

/-- The verdict of the manifest's signature arrives (R100, R101). -/
def verdictDone (valid : Bool) (s : State) : State :=
  match s.image.verification.bind (·.manifest) with
  | none => s
  | some m =>
    let counter := s.kept.counter m.fields.line
    if !valid then reject .badSignature s
    else if m.fields.epoch < counter then reject .rollback s
    else if counter + 16 < m.fields.epoch then reject .epochStep s
    else acceptManifest m s

/-- The candidate set of a line 0 manifest: a region for each segment with BOOT or SCAN, in manifest order (R103). -/
def candidateSet (base : Nat) (segments : List Segment) : List Region :=
  (segments.filter fun g => g.boot || g.scanned).map fun g =>
    ⟨base + g.offset, g.length, g.digest, g.boot, g.scanned⟩

/-- The staged record that completes a verification (R103). -/
def State.verifiedRecord (s : State) (m : Manifest) : Staged :=
  .verified m.fields
    (if m.fields.line = 0 then some (candidateSet (s.inactiveBank.base s.bankSize) m.segments) else none)

/-- The last segment has matched: the staged record is written VERIFIED (R103). The deadline stops here, as R104 says, and not at the end of
the update (log entry 40). -/
def completeVerification (m : Manifest) (s : State) : State :=
  State.handOver (.stagedPut (s.verifiedRecord m)) .silent
    (updateVerification (fun v => { v with deadline := none }) s)

/-- A segment has matched: the next one is read, or the verification completes (R102). -/
def segmentMatched (v : Verification) (m : Manifest) (s : State) : State :=
  let s := updateVerification (fun v => { v with progress := v.progress + 1 }) s
  match m.segments[v.index + 1]? with
  | some g => placeImageJob (s.segmentJob (v.index + 1) g) (updateVerification (fun v => { v with index := v.index + 1 }) s)
  | none => completeVerification m s

/-- A segment job's outcome (R102). -/
def segmentDone (j : Job) (measured : Bytes) (s : State) : State :=
  match s.image.verification with
  | none => s
  | some v =>
    match v.manifest with
    | none => s
    | some m =>
      if j.matches measured then segmentMatched v m s else reject (.segmentMismatch v.index) s

end Sys2Proof.Machine
end

