-- ==== Sys2Proof/Machine/JobEnd.lean ====
section
/-! DEFINITION. A burst's bytes and the end of a Flash Reader job (R51 to R53). -/

namespace Sys2Proof.Machine

/-- The outcome of a job that has ended goes to its requester (R52). -/
def deliver (j : Job) (block : Bytes) (digest : Option Bytes) (s : State) : State :=
  match j.purpose, digest with
  | .bootMeasure, some d => measurementJobDone j d s
  | .scan, some d => scanJobDone j d s
  | .imageVerify, d =>
    if j.isManifest then manifestDone block d s
    else match d with
      | some d => segmentDone j d s
      | none => s
  | _, none => s

/-- A job has ended: the digest, if any, is taken, the job leaves the list, its outcome is delivered, and the next job starts
(R52, R50). -/
def endJob (j : Job) (digest : Option Bytes) (s : State) : State :=
  pump (deliver j s.reader.buffer digest (dropCurrent s))

/-- The job in progress ends when its context is FINISHED and every byte has been read; a manifest job with an invalid segment count
when its last burst has been read (R52, R53). -/
def endJobIfDone (s : State) : State :=
  match s.reader.current with
  | some j =>
    if 0 < j.remaining ∨ s.reader.cancelled then s
    else if s.digest.reader.state = .finished then endJob j (some s.digest.reader.result) s
    else if j.isManifest ∧ s.reader.signedLength.isNone then endJob j none s
    else s
  | none => s

/-- The length of the signed part for a segment count in 1..8, read from the first burst (R53). -/
def signedPart (burst : Bytes) : Option Nat :=
  let c := segmentCount burst
  if 1 ≤ c ∧ c ≤ 8 then some (16 + 48 * c) else none

/-- The READER context takes bytes of a job: it is opened by the job's first burst and asked to finish with the last byte it is to be
given (R47, R51, R53). -/
def feedReader (first last : Bool) (bytes : Bytes) (s : State) : State :=
  let c := (if first then Context.opened else s.digest.reader).give bytes
  { s with digest := (s.digest.withContext .reader (if last then c.finish else c)).takeBlock }

/-- A burst of a manifest job: every byte is kept in the buffer, and the signed bytes are given to the context (R53). -/
def manifestBurst (j : Job) (bytes : Bytes) (s : State) : State :=
  let done := j.length - j.remaining
  let signed := if done = 0 then signedPart bytes else s.reader.signedLength
  let s := { s with reader := { s.reader with
    buffer := s.reader.buffer ++ bytes, signedLength := signed } }
  match signed with
  | some n => if done < n then feedReader (done == 0) (decide (n ≤ done + bytes.length)) (bytes.take (n - done)) s else s
  | none => s

/-- A burst of another job (R51). -/
def plainBurst (j : Job) (bytes : Bytes) (s : State) : State :=
  feedReader (j.remaining == j.length) (decide (j.remaining ≤ bytes.length)) bytes s

/-- A burst's bytes have been read: the remaining length is lowered, the bytes are given, and the port is free (R51, R56). The bytes of a
cancelled job are discarded and the job is removed (R54). -/
def burstRead (bytes : Bytes) (s : State) : State :=
  let s := { s with
    port := { s.port with side := .idle }
    reader := { s.reader with bursting := false } }
  match s.reader.current with
  | none => s
  | some j =>
    if s.reader.cancelled then pump (dropCurrent s)
    else
      let s := { s with reader := { s.reader with
        current := some { j with remaining := j.remaining - bytes.length } } }
      endJobIfDone (if j.isManifest then manifestBurst j bytes s else plainBurst j bytes s)

/-- The bytes a burst being read brings (R51). -/
def State.burstFits (s : State) (bytes : Bytes) : Bool :=
  s.reader.bursting && match s.reader.current with
    | some j => bytes.length == j.burst
    | none => false

end Sys2Proof.Machine
end

