-- ==== Sys2Proof/Machine/Link.lean ====
section
/-! DEFINITION. The message link: frames, the check order, polls, overruns and timeouts (R167 to R174). -/

namespace Sys2Proof.Machine

/-! ## What LINK_DO sends (R167, R168, log entry 9) -/

/-- LINK_CS rises after the part has sent some bytes in the transaction; the moments in which a transaction can have begun start anew. -/
def sends (bytes : Bytes) (s : State) : State := { s with pins := { s.pins with linkDo := bytes, past := [] } }

/-- The link as it was when a transaction began, if it began since LINK_CS last rose (log entry 10). -/
def State.whenBegan (s : State) (b : Began) : Option LinkMoment :=
  if b.changes = 0 then some s.moment else s.pins.past[b.changes]?

/-- SOC_HOLD was asserted in a transaction after it began (R167, R175). -/
def State.heldSince (s : State) (b : Began) : Bool := (s.pins.past.take b.changes).any (·.held)

/-- The bytes that LINK_DO sends in a transaction that would send some bytes: FF for each where it began while the SoC was held, and FF for
the rest of them from the moment SOC_HOLD is asserted (R167, R175). -/
def State.sentBytes (s : State) (b : Began) (m : LinkMoment) (bytes : Bytes) : Bytes :=
  if m.held then List.replicate bytes.length 0xFF
  else if s.heldSince b then bytes.take b.beforeHold ++ List.replicate (bytes.length - b.beforeHold) 0xFF
  else bytes

/-- Bytes of a transaction that begins and ends while SOC_HOLD is asserted: FF for each (R167). -/
def sendsHeld (n : Nat) (s : State) : State := sends (List.replicate n 0xFF) s

/-- Bytes of a request frame: EE for each (R168, R173). -/
def sendsBusy (n : Nat) (s : State) : State := sends (List.replicate n 0xEE) s

/-! ## Rights (step 6) -/

/-- The rights of which a request needs one; none for a request that needs no right (Formats, Request codes). -/
def Req.rights : Req → List Nat
  | .keyGenerate | .keyImport | .keyRestrict | .keyRetire | .keyErase | .blobWrite => [rightAdmin, rightOwner]
  | .requesterWrite | .reactionWrite | .patternWrite => [rightAdmin]
  | .verifyStaged | .abortImage | .armTrial | .confirmImage => [rightUpdate]
  | .rebootRouter => [rightUpdate, rightAdmin]
  | .vaultClaim | .credEnroll | .credRemove | .ownerReset => [rightOwner]
  | _ => []

/-- A factory request (R184). -/
def Req.isFactory : Req → Bool
  | .provisionSlot | .provisionCredential | .provisionLayout | .provisionGolden | .lockFactory => true
  | _ => false

/-- The right a parameter needs (R180). -/
def Param.right : Param → Nat
  | .boot _ => rightAdmin
  | .vault _ => rightOwner

/-- The parameter a payload names in its first byte (R180). -/
def namedParam : Bytes → Option Param
  | [] => none
  | code :: _ => Param.ofCode code

/-- Step 6 of the check order (R170, R180, R184). -/
def checkRight (code : Req) (identity : Nat) (payload : Bytes) (s : State) : Checked Unit :=
  if code = .setParameter then do
    let p ← layout (namedParam payload)
    check (s.hasRight identity p.right) .notPermitted
  else if code.isFactory then check (s.kept.lifecycle == .manufacture) .notPermitted
  else check (code.rights.isEmpty || code.rights.any (s.hasRight identity)) .notPermitted

/-! ## The vault's turn (R145) -/

/-- A request that the vault serves (log entry 17). -/
def Req.usesVault (payload : Bytes) : Req → Bool
  | .vaultStatus | .vaultClaim | .credEnroll | .credCheck | .credRetrieve | .credChange | .credRemove | .ownerReset
  | .provisionCredential => true
  | .setParameter | .readParameter =>
    match namedParam payload with
    | some (.vault _) => true
    | _ => false
  | _ => false

/-- The vault is free and nothing waits for it (R145). -/
def VaultUnit.free (v : VaultUnit) : Bool := v.holder.isNone && v.waiting.isEmpty

/-- A vault request holds the vault, or waits for it (R145). -/
def withVault (serve : State → State) (s : State) : State :=
  if s.vault.free then serve { s with vault := { s.vault with holder := some .request } }
  else
    { s with
      vault := { s.vault with waiting := s.vault.waiting ++ [.request] }
      link := { s.link with service := .vaultWait } }

/-! ## A frame that is read (R168, R170) -/

/-- A refusal at step 1 or 2: it raises the bad-frame run and is answered to FF; the eighth in a row is a condition event (R170, R174). -/
def refuseFrame (status : Status) (s : State) : State :=
  let t := answerAs 0xFF status [] s.raiseBadRun
  if burstReached s t then fire .frameErrorBurst 0 t else t

/-- The state in which an admitted request is served: the frame has been admitted, and the request is in service (R77, R170). -/
def inService (code : Req) (identity : Nat) (payload : Bytes) (s : State) : State :=
  let t := admitFrame s
  { t with link := { t.link with
    state := .serving, request := some ⟨code, identity, payload⟩, service := .none } }

/-- A request that passes step 5 is admitted and, if it passes step 6, is handed to the block that serves it (R170, R171). -/
def admitted (code : Req) (serve : Nat → Bytes → State → State) (identity : Nat) (payload : Bytes) (s : State) : State :=
  let t := inService code identity payload s
  match checkRight code identity payload t with
  | .error status => refuse status t
  | .ok () => if code.usesVault payload then withVault (serve identity payload) t else serve identity payload t

/-- An identity is enabled (R26). -/
def State.enabled (s : State) (identity : Nat) : Bool :=
  match s.requester identity with
  | some r => r.enabled
  | none => false

/-- A complete frame with a correct CRC and a known code, from step 2 on (R170). -/
def receive (code : Req) (serve : Nat → Bytes → State → State) (identity : Byte) (payload : Bytes) (s : State) : State :=
  if 1024 < payload.length then refuseFrame .badLength s
  else
    let s := s.acceptFrame
    let answering := if identity.toNat ≤ 7 then identity else 0xFF
    if !s.enabled identity.toNat then answerAs answering .identityDisabled [] s
    else if !s.admits identity.toNat then answerAs answering .stageClosed [] s
    else admitted code serve identity.toNat payload s

/-- An overrun frame: the counter and the flag are raised and nothing else changes (R173). One in which SOC_HOLD is asserted is counted all
the same: R175 discards a frame that is being read, and an overrun frame is not read (log entry 10). -/
def overrun (sent : Bytes) (s : State) : State :=
  sends sent (State.raise .overrun
    { s with link := { s.link with overruns := saturating 255 s.link.overruns } })

/-- A request frame of `n` bytes arrives, in a state that stands from its first byte to its last: ignored while the SoC is held, an overrun
while the link is SERVING, and read while it is IDLE (R167). -/
def frameArrives (n : Nat) (read : State → State) (s : State) : State :=
  if s.held then sendsHeld n s
  else if s.link.state = .idle then sendsBusy n (read s)
  else overrun (List.replicate n 0xEE) s

/-- A request command: a whole frame of a request with a correct CRC, length and code (log entry 1). -/
def request (code : Req) (serve : Nat → Bytes → State → State) (identity : Byte) (payload : Bytes) (s : State) : State :=
  frameArrives (payload.length + 7) (receive code serve identity payload) s

/-! ## Frames that fail (R169, R170) -/

/-- Steps 1 to 3 on the bytes of a frame: the status of the first that fails (R170). -/
def frameFailure (frame : Bytes) : Option Status :=
  let body := frame.drop 1
  if frame.length < 7 ∨ crcBytes (body.take (frame.length - 3)) ≠ body.drop (frame.length - 3) then some .badFrame
  else if number (slice 3 2 frame) ≠ frame.length - 7 ∨ 1024 < number (slice 3 2 frame) then some .badLength
  else if (Req.ofCode (frame.getD 1 0)).isNone then some .unknownRequest
  else none

/-- A frame that fails is answered (R170). A frame that passes steps 1 to 3 is the command of its request, and nothing here. -/
def receiveBad (frame : Bytes) (s : State) : State :=
  match frameFailure frame with
  | some .unknownRequest => answerAs 0xFF .unknownRequest [] s.acceptFrame
  | some status => refuseFrame status s
  | none => s

/-- The frame timeout T in µs, from the bytes received so far (R169). -/
def frameLimit (received : Bytes) : Nat :=
  let length := if received.length < 5 then 1024 else min 1024 (number (slice 3 2 received))
  1000 + 10 * (length + 7)

/-- A frame being read times out: it is discarded, LINK_ERROR is raised and the bad-frame run rises; the link stays IDLE
(R169, R174). -/
def timeOut (received : Bytes) (s : State) : State :=
  let t := sendsBusy received.length (s.raiseBadRun.raise .linkError)
  if burstReached s t then fire .frameErrorBurst 0 t else t

/-- A frame of two or more bytes is being read, and its limit is reached (R169, log entry 12). -/
def State.timesOut (s : State) (received : Bytes) (elapsed : Nat) : Bool :=
  !s.held && s.link.state == .idle && decide (2 ≤ received.length) && received.head? == some 0xA5 &&
    decide (frameLimit received ≤ elapsed)

/-! ## Polls and ignored transactions (R167, R172) -/

/-- What a poll that begins in a moment of the link and clocks `n` bytes would receive while the SoC is not held (R167, R172). -/
def LinkMoment.pollBytes (m : LinkMoment) (n : Nat) : Bytes :=
  match m.state, m.reply with
  | .ready, some r => (r.frame ++ List.replicate (n - r.frame.length) 0xFF).take n
  | _, _ => (0xEE :: List.replicate (n - 1) 0xFF).take n

/-- A poll takes the reply when it begins while the reply is READY and clocks every byte of the frame with the SoC not held (R172, R175).
Where SOC_HOLD is asserted after the last byte of the frame and before LINK_CS rises, R167 and R172 leave open whether the reply is taken: it
is not, the model's choice (log entry 51). -/
def State.pollTakes (s : State) (b : Began) (m : LinkMoment) (n : Nat) : Bool :=
  !m.held && !s.heldSince b && match m.state, m.reply with
    | .ready, some r => decide (r.frame.length ≤ n)
    | _, _ => false

/-- The reply is taken: the link is IDLE, and a pending reboot is taken (R172, R82). -/
def takeReply (s : State) : State :=
  let t := { s with link := { s.link with state := .idle, reply := none } }
  if t.gate.rebootPending then startOfMeasurement false t else t

/-- A poll (R172). -/
def poll (n : Nat) (b : Began) (s : State) : State :=
  match s.whenBegan b with
  | some m =>
    let t := sends (s.sentBytes b m (m.pollBytes n)) s
    if s.pollTakes b m n then takeReply t else t
  | none => s

/-- A frame of two or more bytes (R167). -/
def isFrame (frame : Bytes) : Bool := decide (2 ≤ frame.length) && frame.head? == some 0xA5

/-- A transaction that is ignored: it is empty, it is the sync byte alone, it begins while the SoC is held, or it is a request frame that
is discarded because SOC_HOLD is asserted while it is read (R167, R175). -/
def State.ignores (s : State) (received : Bytes) (b : Began) : Bool :=
  match s.whenBegan b with
  | some m => m.held || received == [] || received == [0xA5] || (isFrame received && m.state == .idle && s.heldSince b)
  | none => false

/-- An ignored transaction changes nothing but what LINK_DO has sent (R167). -/
def ignore (received : Bytes) (b : Began) (s : State) : State :=
  match s.whenBegan b with
  | some m => sends (s.sentBytes b m (List.replicate received.length 0xEE)) s
  | none => s

/-- A frame of two or more bytes begins while the link is SERVING (R173). -/
def State.overruns (s : State) (frame : Bytes) (b : Began) : Bool :=
  match s.whenBegan b with
  | some m => isFrame frame && !m.held && m.state != .idle
  | none => false

/-- An overrun frame that began in a moment of the link sends EE for each byte, and FF once SOC_HOLD is asserted (R173, log entry 10). -/
def overrunFrame (frame : Bytes) (b : Began) (s : State) : State :=
  match s.whenBegan b with
  | some m => overrun (s.sentBytes b m (List.replicate frame.length 0xEE)) s
  | none => s

end Sys2Proof.Machine
end

