-- ==== Sys2Proof/Machine/Attention.lean ====
section
/-! DEFINITION. The link's own requests: IDENTIFY, attention and parameters (R177 to R180), and its frame events. -/

namespace Sys2Proof.Machine

/-! ## IDENTIFY (R179) -/

/-- The 23 bytes of IDENTIFY (R179). -/
def State.identification (s : State) (identity : Nat) : Bytes :=
  [0x01, s.kept.lifecycle.code] ++ padTo 16 (s.kept.serial.take 16) ++
    [byteOf identity, s.admittedSet, byteOf s.ism.stage.number, s.gate.state.code, yesNo s.kept.vault.claimed]

def serveIdentify (identity : Nat) (payload : Bytes) (s : State) : State :=
  answered (do
    layout (readNothing payload)
    pure (s.identification identity)) s

def execIdentify (identity : Byte) (payload : Bytes) (s : State) : Host.Outcome State Fault Refusal :=
  event true (request .identify serveIdentify identity payload) s

/-! ## Attention (R177, R178) -/

/-- A set of flags or a mask as two bytes (R177). -/
def flagBytes (set : BitVec 12) : Bytes := le16 set.toNat

/-- A two-byte mask with bits 12..15 clear (R177, R178). -/
def readMask (payload : Bytes) : Option (BitVec 12) :=
  if payload.length = 2 ∧ number payload < 4096 then some (BitVec.ofNat 12 (number payload)) else none

def serveReadAttention (_identity : Nat) (payload : Bytes) (s : State) : State :=
  answered (do
    layout (readNothing payload)
    pure (flagBytes s.link.flags ++ flagBytes s.link.mask ++
      [yesNo s.alertLevel, byteOf s.link.badRun, byteOf s.link.overruns])) s

def execReadAttention (identity : Byte) (payload : Bytes) (s : State) : Host.Outcome State Fault Refusal :=
  event true (request .readAttention serveReadAttention identity payload) s

def serveClearAttention (_identity : Nat) (payload : Bytes) (s : State) : State :=
  served (do
    let mask ← layout (readMask payload)
    let t := s.clearFlags mask
    pure (answer .ok (flagBytes t.link.flags) t)) s

def execClearAttention (identity : Byte) (payload : Bytes) (s : State) : Host.Outcome State Fault Refusal :=
  event true (request .clearAttention serveClearAttention identity payload) s

def serveSetAlertMask (_identity : Nat) (payload : Bytes) (s : State) : State :=
  served (do
    let mask ← layout (readMask payload)
    pure (answer .ok (flagBytes mask) { s with link := { s.link with mask := mask } })) s

def execSetAlertMask (identity : Byte) (payload : Bytes) (s : State) : Host.Outcome State Fault Refusal :=
  event true (request .setAlertMask serveSetAlertMask identity payload) s

/-! ## Parameters (R180) -/

/-- SILENCE_LIMIT takes 0 for OFF, or the next larger of its choices, at most 512 s (R84). -/
def silenceChoice (value : Nat) : Nat :=
  if value = 0 then 0
  else if value ≤ 8 then 8
  else if value ≤ 16 then 16
  else if value ≤ 32 then 32
  else if value ≤ 64 then 64
  else if value ≤ 128 then 128
  else if value ≤ 256 then 256
  else 512

/-- The value taken from the value given (R84, R138, R180). -/
def Param.taken : Param → Nat → Nat
  | .boot .attachLimit => clamp 1 60
  | .boot .completeLimit => clamp 10 900
  | .boot .silenceLimit => silenceChoice
  | .boot .bootPolicy => min 1
  | .boot .scanPeriod => min 1440
  | .vault .free => clamp 1 8
  | .vault .base => clamp 1 60
  | .vault .cap => clamp 60 86400
  | .vault .forgive => clamp 1 168

/-- BOOT_POLICY as it is carried: 0 STRICT, 1 AUDIT (R180). -/
def BootPolicy.number : BootPolicy → Nat
  | .strict => 0
  | .audit => 1

/-- The value held for a parameter (R180). -/
def Records.param (r : Records) : Param → Nat
  | .boot .attachLimit => r.params.attachLimit
  | .boot .completeLimit => r.params.completeLimit
  | .boot .silenceLimit => r.params.silenceLimit
  | .boot .bootPolicy => r.params.bootPolicy.number
  | .boot .scanPeriod => r.params.scanPeriod
  | .vault .free => r.vault.free
  | .vault .base => r.vault.base
  | .vault .cap => r.vault.cap
  | .vault .forgive => r.vault.forgive

/-- The write that sets a parameter (R84, R138). -/
def Param.write (value : Nat) : Param → StoreOp
  | .boot p => .bootParam p value
  | .vault p => .vaultParam p value

/-- A name code and a value of four bytes (R180). -/
def readParameterValue (payload : Bytes) : Option (Byte × Param × Nat) :=
  match payload with
  | [code, b0, b1, b2, b3] => (Param.ofCode code).map fun p => (code, p, number [b0, b1, b2, b3])
  | _ => none

def serveSetParameter (_identity : Nat) (payload : Bytes) (s : State) : State :=
  served (do
    let (code, p, value) ← layout (readParameterValue payload)
    let taken := p.taken value
    pure (s.handOver (p.write taken) (.reply (code :: le32 taken)))) s

def execSetParameter (identity : Byte) (payload : Bytes) (s : State) : Host.Outcome State Fault Refusal :=
  event true (request .setParameter serveSetParameter identity payload) s

def serveReadParameter (_identity : Nat) (payload : Bytes) (s : State) : State :=
  answered (do
    let code ← layout (readByte payload)
    let p ← layout (Param.ofCode code)
    pure (code :: le32 (s.kept.param p))) s

def execReadParameter (identity : Byte) (payload : Bytes) (s : State) : Host.Outcome State Fault Refusal :=
  event true (request .readParameter serveReadParameter identity payload) s

/-! ## Frame events -/

def execLinkTransactionIgnored (received : Transaction) (s : State) : Host.Outcome State Fault Refusal :=
  event (s.ignores received.bytes received.began) (ignore received.bytes received.began) s

/-- A frame that passes steps 1 to 3 while the link would read it is the command of its request and nothing here (log entry 1). -/
def State.frameFails (s : State) (frame : Bytes) : Bool :=
  isFrame frame && (s.held || s.link.state != .idle || (frameFailure frame).isSome)

def execBadFrame (frame : Bytes) (s : State) : Host.Outcome State Fault Refusal :=
  event (s.frameFails frame) (frameArrives frame.length (receiveBad frame)) s

def execFrameTimeout (received : Bytes) (elapsed : Nat) (s : State) : Host.Outcome State Fault Refusal :=
  event (s.timesOut received elapsed) (timeOut received) s

def execOverrun (frame : Transaction) (s : State) : Host.Outcome State Fault Refusal :=
  event (s.overruns frame.bytes frame.began) (overrunFrame frame.bytes frame.began) s

def execPoll (clocked : Clocking) (s : State) : Host.Outcome State Fault Refusal :=
  event (s.whenBegan clocked.began).isSome (poll clocked.count clocked.began) s

end Sys2Proof.Machine
end

