-- ==== Sys2Proof/Machine/Gate.lean ====
section
/-! DEFINITION. The Boot Gate's events and requests (chapter 4). -/

namespace Sys2Proof.Machine

/-! ## Selection and deadlines -/

def execBankSelection (s : State) : Host.Outcome State Fault Refusal := event s.selectable selectNow s

def execAttachDeadlineExpiry (s : State) : Host.Outcome State Fault Refusal :=
  event (s.gate.state == .released && reached s.gate.attach s.uptime) failOrReboot s

def execBootCompleteDeadlineExpiry (s : State) : Host.Outcome State Fault Refusal :=
  event (s.gate.state == .attached && reached s.gate.complete s.uptime) failOrReboot s

def execHoldDwellExpiry (s : State) : Host.Outcome State Fault Refusal :=
  event (s.gate.state == .measuring && reached s.gate.dwell s.uptime) (startOfMeasurement false) s

/-- SOC_RESTART before RUNNING is a failed attempt or the pending reboot; in RUNNING it restarts the boot (R81). -/
def socRestarted (s : State) : State :=
  if s.gate.state = .running then startOfMeasurement false s else failOrReboot s

def execSocRestart (s : State) : Host.Outcome State Fault Refusal := event s.socRuns socRestarted s

def execRebootTimerExpiry (s : State) : Host.Outcome State Fault Refusal :=
  event (s.gate.rebootPending && s.socRuns && reached s.gate.reboot s.uptime) (startOfMeasurement false) s

/-- The silence watch runs out: SILENCE is raised, the condition is an event, and the watch stays stopped (R85). -/
def silenceExpired (s : State) : State :=
  fire .linkSilence 0 (State.raise .silence { s with gate := { s.gate with silence := none } })

def execSilenceWatchExpiry (s : State) : Host.Outcome State Fault Refusal :=
  event (s.gate.state == .running && reached s.gate.silence s.uptime) silenceExpired s

def execScanTimerExpiry (s : State) : Host.Outcome State Fault Refusal :=
  event (s.gate.state == .running && s.scanDue) scanExpiry s

/-! ## REBOOT ROUTER (R82) -/

/-- A reboot is pending, and is taken at the latest when its timer runs out (R82). -/
def pendReboot (s : State) : State :=
  { s with gate := { s.gate with rebootPending := true, reboot := s.inMs 100 } }

def serveRebootRouter (_identity : Nat) (payload : Bytes) (s : State) : State :=
  served (do
    layout (readNothing payload)
    check (s.gate.state == .attached || s.gate.state == .running) .wrongState
    pure (answer .ok [] (pendReboot s))) s

def execRebootRouter (identity : Byte) (payload : Bytes) (s : State) : Host.Outcome State Fault Refusal :=
  event true (request .rebootRouter serveRebootRouter identity payload) s

/-! ## SCAN STATUS (R89) -/

/-- The scan timer as SCAN STATUS shows it (Formats). -/
def State.scanTimerBytes (s : State) : Bytes :=
  match s.gate.scanTimer with
  | some t => [1] ++ le16 t.period ++ le32 (ceilDiv (t.next - s.uptime) 1000)
  | none => List.replicate 7 0

/-- The round in progress as SCAN STATUS shows it (Formats). -/
def roundBytes : Option ScanRound → Bytes
  | some round => [1, byteOf round.left]
  | none => [0, 0]

/-- The scan record as SCAN STATUS shows it (Formats). -/
def ScanRecord.bytes (r : ScanRecord) : Bytes :=
  le16 r.rounds ++ [byteOf r.skips] ++
    (match r.lastMismatch with
      | some m => [1, byteOf m.index, byteOf m.release] ++ le32 m.second
      | none => List.replicate 7 0) ++
    (match r.lastRound with
      | some second => [1] ++ le32 second
      | none => List.replicate 5 0)

/-- The first mismatching region of a verdict; 0 where there is none (Formats). -/
def Verdict.index : Verdict → Nat
  | .mismatch i => i
  | _ => 0

def serveScanStatus (_identity : Nat) (payload : Bytes) (s : State) : State :=
  answered (do
    layout (readNothing payload)
    pure (s.scanTimerBytes ++ roundBytes s.gate.scanRound ++ s.gate.scanRecord.bytes ++
      [s.gate.verdict.code, byteOf s.gate.verdict.index, bankCode s.gate.selected, yesNo s.gate.trialBooted])) s

def execScanStatus (identity : Byte) (payload : Bytes) (s : State) : Host.Outcome State Fault Refusal :=
  event true (request .scanStatus serveScanStatus identity payload) s

end Sys2Proof.Machine
end

