-- ==== Sys2Proof/Machine/Identity.lean ====
section
/-! DEFINITION. The requests of identities, stages and measurement (chapter 2). -/

namespace Sys2Proof.Machine

/-! ## EXTEND DIGEST (R37) and EXTEND DATA (R38) -/

/-- A chain, a tag of 0..8 bytes, and what follows (Formats, R37 check 1). -/
def readExtend (payload : Bytes) : Option (Nat × Bytes × Bytes) := do
  let (chain, bytes) ← takeNumber 1 payload
  let (tag, rest) ← takeCounted bytes
  if chain ≤ 7 ∧ tag.length ≤ 8 then pure (chain, tag, rest) else none

/-- One REQUEST entry is appended and its chain extended (R37, R35). -/
def appendRequest (chain identity : Nat) (tag eventDigest : Bytes) (s : State) : State :=
  { s with ism := s.ism.append chain .request eventDigest (some identity) tag }

/-- The reply to an extension, after the append: the sequence number, any digest computed, the chain's value and the entry count
(Formats). -/
def extendReply (chain : Nat) (computed : Bytes) (s : State) : Bytes :=
  byteOf (s.ism.log.length - 1) :: (computed ++ s.ism.chain chain ++ [byteOf s.ism.log.length])

def serveExtendDigest (identity : Nat) (payload : Bytes) (s : State) : State :=
  served (do
    let (chain, tag, eventDigest) ← layout (readExtend payload)
    check (eventDigest.length == 32) .badArgument
    checkExtend chain s.ism
    let t := appendRequest chain identity tag eventDigest s
    pure (answer .ok (extendReply chain [] t) t)) s

def execExtendDigest (identity : Byte) (payload : Bytes) (s : State) : Host.Outcome State Fault Refusal :=
  event true (request .extendDigest serveExtendDigest identity payload) s

def serveExtendData (_identity : Nat) (payload : Bytes) (s : State) : State :=
  served (do
    let (chain, tag, data) ← layout (readExtend payload)
    check (!data.isEmpty) .badArgument
    checkExtend chain s.ism
    pure (beginDigest none data (.extendDigest chain tag) s)) s

def execExtendData (identity : Byte) (payload : Bytes) (s : State) : Host.Outcome State Fault Refusal :=
  event true (request .extendData serveExtendData identity payload) s

/-- The data of EXTEND DATA has been digested: the checks are made again, and the entry is appended (R38). -/
def extendDataDone (chain : Nat) (tag eventDigest : Bytes) (s : State) : State :=
  let identity := (s.link.request.map (·.identity)).getD 0
  served (do
    checkExtend chain s.ism
    let t := appendRequest chain identity tag eventDigest s
    pure (answer .ok (extendReply chain eventDigest t) t)) s

/-! ## READ CHAINS (R40) -/

def serveReadChains (_identity : Nat) (payload : Bytes) (s : State) : State :=
  answered (do
    let set ← layout (readByte payload)
    check (set != 0) .badArgument
    pure ([byteOf s.ism.stage.number, byteOf s.ism.log.length, set] ++ s.ism.chainValues set)) s

def execReadChains (identity : Byte) (payload : Bytes) (s : State) : Host.Outcome State Fault Refusal :=
  event true (request .readChains serveReadChains identity payload) s

/-! ## READ LOG (R41) -/

/-- A log entry's 48 bytes (Formats). -/
def LogEntry.bytes (e : LogEntry) : Bytes :=
  [byteOf e.sequence, byteOf e.chain, e.kind.code, byteOf e.stage.number,
    (match e.source with
      | some identity => byteOf identity
      | none => 0xFF),
    byteOf e.tag.length, 0, 0] ++ padTo 8 e.tag ++ e.digest

/-- The log entries returned from a start, at most 20 (R41). -/
def Ism.entriesFrom (m : Ism) (start count : Nat) : List LogEntry := (m.log.drop start).take (min count 20)

def serveReadLog (_identity : Nat) (payload : Bytes) (s : State) : State :=
  answered (do
    let (start, rest) ← layout (takeNumber 1 payload)
    let count ← layout (readByte rest)
    check (decide (start ≤ s.ism.log.length)) .badArgument
    let entries := s.ism.entriesFrom start count.toNat
    pure ([byteOf s.ism.log.length, byteOf entries.length] ++ entries.flatMap LogEntry.bytes)) s

def execReadLog (identity : Byte) (payload : Bytes) (s : State) : Host.Outcome State Fault Refusal :=
  event true (request .readLog serveReadLog identity payload) s

/-! ## ADVANCE STAGE (R30) -/

/-- The stage is raised with its stage mark, and handed to the Boot Gate (R30, R78). -/
def advanceTo (target : Stage) (s : State) : State :=
  stageReached target { s with ism := s.ism.advance target }

/-- The target of an advance: one of the four stages (R30 check 1). -/
def readStage (payload : Bytes) : Option Stage := (readByte payload).bind fun b => Stage.ofNumber b.toNat

def serveAdvanceStage (_identity : Nat) (payload : Bytes) (s : State) : State :=
  served (do
    let target ← layout (readStage payload)
    check (decide (s.ism.stage.number < target.number)) .wrongState
    let t := advanceTo target s
    pure (answer .ok ([byteOf target.number, byteOf (t.ism.log.length - 1)] ++ t.ism.chain 1) t)) s

def execAdvanceStage (identity : Byte) (payload : Bytes) (s : State) : Host.Outcome State Fault Refusal :=
  event true (request .advanceStage serveAdvanceStage identity payload) s

/-! ## REQUESTER WRITE (R27) and REQUESTER READ (R28) -/

/-- A yes/no field: 00 or 01 (Formats). -/
def readYesNo (b : Byte) : Option Bool :=
  match b.toNat with
  | 0 => some false
  | 1 => some true
  | _ => none

/-- An identity and its record (R27 check 1, Formats). -/
def readRequester (payload : Bytes) : Option (Nat × Requester) :=
  match payload with
  | [identity, enabled, ceiling, rights] => do
    let enabled ← readYesNo enabled
    let ceiling ← Stage.ofNumber ceiling.toNat
    if identity.toNat ≤ 7 ∧ rights.toNat < 8 then pure (identity.toNat, ⟨enabled, ceiling, rights⟩) else none
  | _ => none

/-- At least one enabled identity of a table holds ADMIN (R27 check 3). -/
def someAdmin (table : Vector Requester 8) : Bool :=
  table.toList.any fun r => r.enabled && inSet r.rights rightAdmin

/-- Checks 2 and 3 (R27). -/
def Records.checkRequester (r : Records) (target : Nat) (record : Requester) : Checked Unit := do
  check (target != 0 || (record.enabled && record.ceiling == .loader)) .badArgument
  check (someAdmin (r.requesters.setIfInBounds target record)) .badArgument

def serveRequesterWrite (_identity : Nat) (payload : Bytes) (s : State) : State :=
  served (do
    let (target, record) ← layout (readRequester payload)
    s.kept.checkRequester target record
    pure (s.handOver (.requesterPut target record) (.reply payload))) s

def execRequesterWrite (identity : Byte) (payload : Bytes) (s : State) : Host.Outcome State Fault Refusal :=
  event true (request .requesterWrite serveRequesterWrite identity payload) s

/-- An identity's record as a reply carries it (Formats). -/
def Requester.bytes (r : Requester) : Bytes := [yesNo r.enabled, byteOf r.ceiling.number, r.rights]

def serveRequesterRead (_identity : Nat) (payload : Bytes) (s : State) : State :=
  answered (do
    layout (readNothing payload)
    pure (s.kept.requesters.toList.flatMap Requester.bytes ++ [byteOf s.ism.stage.number, s.admittedSet])) s

def execRequesterRead (identity : Byte) (payload : Bytes) (s : State) : Host.Outcome State Fault Refusal :=
  event true (request .requesterRead serveRequesterRead identity payload) s

end Sys2Proof.Machine
end

