-- ==== Sys2Proof/Machine/Button.lean ====
section
/-! DEFINITION. The button, the presence window and the indicator: their events and requests (chapter 8). -/

namespace Sys2Proof.Machine

/-! ## BTN (R148) -/

/-- BTN changes level and the debounce count starts again (R148). The level is the pin's and is followed without power too (log entry
25). -/
def btnLevel (pressed : Bool) (s : State) : State :=
  { s with biu := { s.biu with pressed := pressed, levelSince := s.uptime } }

def execBtnLevelChange (pressed : Bool) (s : State) : Host.Outcome State Fault Refusal :=
  .next (if s.biu.pressed = pressed then s else if s.powered then (btnLevel pressed s).settle else btnLevel pressed s)

/-- BTN has held its level for 30 ms (R148). -/
def State.levelHeld (s : State) : Bool := decide (s.biu.levelSince + 30 ≤ s.uptime)

/-- The debounced press. From RELEASED it starts the press timer; at the first determination the press is untimed (R148). -/
def debouncedPress (s : State) : State :=
  { s with biu := { s.biu with
      button := .pressed, press := some ⟨s.uptime, false, s.biu.button == .undetermined⟩ } }

def State.pressDue (s : State) : Bool := s.biu.pressed && s.biu.button != .pressed && s.levelHeld

def execDebouncedPress (s : State) : Host.Outcome State Fault Refusal := event s.pressDue debouncedPress s

/-- The press that ends now is a short press: timed, with no hold fired, and below 2 s (R148). -/
def State.shortPress (s : State) : Bool :=
  match s.biu.press with
  | some p => !p.untimed && !p.holdFired && decide (s.uptime < p.since + 2000)
  | none => false

/-- A short press reported to the Boot Gate, which acts on it in FAULT_HOLD with R above 0 (R80). -/
def gatePress (s : State) : State :=
  if s.gate.state = .faultHold ∧ 0 < s.recoverySize then
    let t := { s with gate := { s.gate with failures := 0 } }
    startOfMeasurement true
      (if s.kept.lifecycle = .field then t.handOver (.recoveryNext true) .silent else t)
  else s

/-- The debounced release: the press is timed, and a short press opens the window, raises PRESENCE_OPEN and is reported to the Boot Gate
(R148, R149). -/
def debouncedRelease (s : State) : State :=
  let t := { s with biu := { s.biu with button := .released, press := none } }
  if s.shortPress then gatePress ((openWindow t).raise .presenceOpen) else t

def State.releaseDue (s : State) : Bool := !s.biu.pressed && s.biu.button != .released && s.levelHeld

def execDebouncedRelease (s : State) : Host.Outcome State Fault Refusal := event s.releaseDue debouncedRelease s

/-- A timed press has lasted 10 s and has not yet fired (R148). -/
def State.holdDue (s : State) : Bool :=
  match s.biu.press with
  | some p => !p.untimed && !p.holdFired && decide (p.since + 10000 ≤ s.uptime)
  | none => false

/-- BUTTON_HOLD is a condition event, once per press (R148). -/
def buttonHeld (s : State) : State :=
  fire .buttonHold 0
    { s with biu := { s.biu with press := s.biu.press.map fun p => { p with holdFired := true } } }

def execButtonHold (s : State) : Host.Outcome State Fault Refusal := event s.holdDue buttonHeld s

/-! ## The window and the sources -/

def execPresenceWindowTimeout (s : State) : Host.Outcome State Fault Refusal :=
  event (reached s.biu.window s.uptime) closeWindow s

/-- A source's period ends (R153). -/
def endPeriod (which : IndSource) (s : State) : State :=
  { s with biu := s.biu.withSource which (s.biu.source which).periodEnd }

def execPatternPeriodEnd (source : IndSource) (s : State) : Host.Outcome State Fault Refusal :=
  event ((s.biu.source source).periodOver s.uptime) (endPeriod source) s

/-- The on-time of the shown source has run out while IND is still lit (R154). -/
def State.onTimeOver (s : State) : Bool := s.pins.ind && !s.indLit

/-- IND goes dark for the rest of the period: the pin follows at the end of the event (R154). -/
def execOnTimeEnd (s : State) : Host.Outcome State Fault Refusal := event s.onTimeOver id s

/-! ## SET INDICATOR (R157) -/

/-- The host source is given a pattern; the reply carries it as taken, whether it was taken at once, and whether the host source is shown
(R157). -/
def setHostPattern (p : Pattern) (s : State) : State :=
  let atOnce := s.biu.host.current.isNone
  let t := { s with biu := { s.biu with host := s.biu.host.give s.uptime p } }
  answer .ok (p.bytes ++ [yesNo atOnce, yesNo (t.biu.shown == some .host)]) t

/-- The host source is cleared at once (R157). -/
def clearHost (s : State) : State :=
  let t := { s with biu := { s.biu with host := Source.absent } }
  answer .ok [yesNo (t.biu.shown == some .host)] t

/-- The two forms of SET INDICATOR: CLEAR, with nothing more, and PATTERN (R157, Formats). -/
def readIndicator (payload : Bytes) : Option (Option Pattern) := do
  let (form, rest) ← takeNumber 1 payload
  match form with
  | 0 => do
    atEnd rest
    pure none
  | 1 => (readPattern rest).map some
  | _ => none

def serveSetIndicator (_identity : Nat) (payload : Bytes) (s : State) : State :=
  served (do
    match ← layout (readIndicator payload) with
    | some p => pure (setHostPattern p.taken s)
    | none => pure (clearHost s)) s

def execSetIndicatorPattern (identity : Byte) (payload : Bytes) (s : State) : Host.Outcome State Fault Refusal :=
  event true (request .setIndicator serveSetIndicator identity payload) s

def execSetIndicatorClear (identity : Byte) (payload : Bytes) (s : State) : Host.Outcome State Fault Refusal :=
  event true (request .setIndicator serveSetIndicator identity payload) s

/-! ## PRESENCE STATUS (R151) -/

/-- Seconds left of the window, rounded up (R151). An OPEN window whose closing time is reached and whose timeout is not yet taken shows 0
by R151's formula, below its range of 1..30: the model's choice (log entry 43). -/
def State.windowSeconds (s : State) : Nat :=
  match s.biu.window with
  | some closing => ceilDiv (closing - s.uptime) 1000
  | none => 0

/-- The debounced button as it is coded (Formats). -/
def Button.code : Button → Byte
  | .released => 0
  | .pressed => 1
  | .undetermined => 2

/-- Whole seconds since the debounced press while PRESSED, at most 255 (R151). -/
def State.heldSeconds (s : State) : Nat :=
  match s.biu.button, s.biu.press with
  | .pressed, some p => min 255 ((s.uptime - p.since) / 1000)
  | _, _ => 0

def servePresenceStatus (_identity : Nat) (payload : Bytes) (s : State) : State :=
  answered (do
    layout (readNothing payload)
    pure [yesNo s.present, byteOf s.windowSeconds, s.biu.button.code, byteOf s.heldSeconds, shownCode s.biu.shown]) s

def execPresenceStatus (identity : Byte) (payload : Bytes) (s : State) : Host.Outcome State Fault Refusal :=
  event true (request .presenceStatus servePresenceStatus identity payload) s

end Sys2Proof.Machine
end

