-- ==== Sys2Proof/Machine/KeyTable.lean ====
section
/-! DEFINITION. The Key Table's checks and operations: the use of a slot (R10), a counted use (R6), the creation of a slot (R17), and writes to
OWNER slots beside an owner reset (R144). -/

namespace Sys2Proof.Machine

/-! ## Checking a use (R10) -/

def KeyMaterial.kind : KeyMaterial → KeyKind
  | .pair _ _ => .signingPair
  | .verifyPublic _ => .verifyPublic
  | .secret _ => .secret
  | .blob _ => .blob

/-- Steps 1 and 2: the slot number and a slot that is not EMPTY (R10). -/
def findSlot (i : Nat) (s : State) : Checked KeySlot := do
  check (decide (i ≤ 23)) .badArgument
  match s.kept.slot i with
  | some k => pure k
  | none => .error .slotEmpty

/-- Step 3: the kind is one the request accepts. -/
def checkKind (kinds : List KeyKind) (k : KeySlot) : Checked Unit :=
  check (kinds.contains k.material.kind) .badArgument

/-- Step 4: the slot is ACTIVE. -/
def checkActive (k : KeySlot) : Checked Unit := check (k.state == .active) .wrongState

/-- Step 5: the slot's usage includes the one needed. -/
def checkUsage (usage : Nat) (k : KeySlot) : Checked Unit := check (inSet k.usage usage) .notPermitted

/-- Step 6: the requester is in the answer set. -/
def checkAnswers (identity : Nat) (k : KeySlot) : Checked Unit := check (inSet k.answerSet identity) .notPermitted

/-- Step 7: the slot is not suspended. -/
def checkSuspension (i : Nat) (s : State) : Checked Unit := check (!s.suspended i) .slotSuspended

/-- Step 8: the slot's binding matches. -/
def checkBinding (k : KeySlot) (s : State) : Checked Unit := check (s.ism.bindingMatches k.binding) .bindingMismatch

/-- All eight steps (R10): KEY SIGN, KEY DERIVE, the unwrapping slot of KEY IMPORT, MAKE STATEMENT. -/
def checkUse (i identity : Nat) (kind : KeyKind) (usage : Nat) (s : State) : Checked KeySlot := do
  let k ← findSlot i s
  checkKind [kind] k
  checkActive k
  checkUsage usage k
  checkAnswers identity k
  checkSuspension i s
  checkBinding k s
  pure k

/-! ## What a write to a slot needs of the records -/

/-- No slot that is not EMPTY carries a label (R4). -/
def Records.slotLabelFree (r : Records) (label : Bytes) : Bool :=
  r.slots.toList.all fun slot => match slot with
    | some k => k.label != label
    | none => true

/-- A record is created: for class OWNER the vault's claim state is tested when it is written (R17, R132, R144). -/
def Records.mayHold (r : Records) (owner : Bool) : Bool := !owner || r.vault.claimed

/-- The length of a blob; 0 for another kind (Formats). -/
def KeyMaterial.blobLength : KeyMaterial → Nat
  | .blob data => data.length
  | _ => 0

/-- A chunk follows the blob's data at its length, and the new length is 1024 or less (R20, R185). -/
def checkRoom (offset : Nat) (chunk : Bytes) (k : KeySlot) : Checked Unit := do
  check (offset == k.material.blobLength) .badArgument
  check (decide (offset + chunk.length ≤ 1024)) .badArgument

/-- A new use limit is no greater than the one held (R21). -/
def limitNarrows (held limit : Option Nat) : Bool :=
  match held, limit with
  | some h, some l => decide (l ≤ h)
  | _, _ => true

/-- A new policy narrows the one held, where an absent limit or binding is kept (R21). -/
def KeySlot.narrowsTo (usage answerSet : Byte) (limit : Option Nat) (binding : Option Binding) (k : KeySlot) : Bool :=
  usage != 0 && subset usage k.usage && answerSet != 0 && subset answerSet k.answerSet &&
    (binding.isNone || k.binding.isNone) && limitNarrows k.useLimit limit

/-- What a write to a slot needs of the records as they stand when it is made: the checks of its own rule, tested again, with that rule's
replies (R4, R5, R17, R20, R21, R22, R185). They can fail only where a begun write of a dropped request has changed the slot, or taken the
label, since the request was checked; the rules are silent on that, and the model's choice is not to make such a write (log entry 46). -/
def Records.recheckSlot (r : Records) : StoreOp → Checked Unit
  | .slotPut i record => do
    check (r.slot i).isNone .slotOccupied
    check (r.slotLabelFree record.label) .labelTaken
    check (r.mayHold (record.slotClass == .owner)) .wrongState
  | .slotAppend p offset chunk => do
    let k ← present (r.slotAt p) .slotEmpty
    checkKind [.blob] k
    checkActive k
    checkRoom offset chunk k
  | .slotCount p => do
    let k ← present (r.slotAt p) .slotEmpty
    checkActive k
  | .slotRestrict p usage answerSet limit binding => do
    let k ← present (r.slotAt p) .slotEmpty
    checkActive k
    check (k.narrowsTo usage answerSet limit binding) .badArgument
  | .slotRetire p => check (r.slotAt p).isSome .slotEmpty
  | _ => pure ()

/-! ## Writes to slots -/

/-- A write to a slot of class OWNER is held back while an owner reset's update is begun (R144); other writes are handed over. -/
def handSlot (slotClass : SlotClass) (op : StoreOp) (after : After) (s : State) : State :=
  if slotClass = .owner ∧ s.resetBegun then { s with keys := { s.keys with held := some ⟨op, after⟩ } }
  else s.handOver op after

/-- A write to a slot as it stands: on a slot that has become EMPTY, be it created anew since (log entry 53), it is not made, and its request
is answered SLOT_EMPTY with its result discarded (R15, R16, R119, R144). The write's own checks are made again as well: a use of a slot found
RETIRED is refused WRONG_STATE, as R5 refuses every use of one, where R15 and R119 name only ACTIVE and EMPTY (log entry 38). -/
def writeSlot (p : Place) (op : StoreOp) (after : After) (s : State) : State :=
  served (do
    let k ← present (s.kept.slotAt p) .slotEmpty
    s.kept.recheckSlot op
    pure (handSlot k.slotClass op after s)) s

/-- A counted use (R6), with the reply that follows its write. -/
def countUse (p : Place) (result : Bytes) (report : Bool) (s : State) : State :=
  writeSlot p (.slotCount p) (.replyCounted p.index result report) s

/-- The creating write with check 7 of R17: for class OWNER the vault is CLAIMED. A creating write that meets an owner reset already begun
waits for it (R17, R144). -/
def createSlot (i : Nat) (record : KeySlot) (after : After) (s : State) : State :=
  if record.slotClass = .owner ∧ s.resetBegun then
    { s with keys := { s.keys with held := some ⟨.slotPut i record, after⟩ } }
  else if !s.kept.mayHold (record.slotClass == .owner) then refuse .wrongState s
  else s.handOver (.slotPut i record) after

/-! ## Creating a slot (R17) -/

/-- The usages a kind allows (R3). -/
def KeyKind.usages : KeyKind → Byte
  | .signingPair => 0b000111
  | .verifyPublic => 0b000100
  | .secret => 0b011000
  | .blob => 0b100000

/-- A usage set is allowed for a kind and a class (R3). -/
def usageAllowed (kind : KeyKind) (slotClass : SlotClass) (usage : Byte) : Bool :=
  usage != 0 && subset usage kind.usages && !(inSet usage useSign && inSet usage useStatement) &&
    !(inSet usage useAuthority && slotClass == .owner)

/-- A label is 1..16 bytes long. -/
def labelFits (label : Bytes) : Bool := decide (1 ≤ label.length) && decide (label.length ≤ 16)

/-- A binding or seal form with its chain set: absent with no chain, or explicit or "current" with at least one (R17, R132, log entry
20). -/
def bindingFits (form : Nat) (chains : Byte) : Bool :=
  (form == 0 && chains == 0) || ((form == 1 || form == 2) && chains != 0)

/-- A policy is well formed for a class (R17 check 3). -/
def Policy.wellFormed (p : Policy) (slotClass : SlotClass) : Bool :=
  labelFits p.label && p.answerSet != 0 && bindingFits p.bindingForm p.chains &&
    match KeyKind.ofCode p.kindCode with
    | some kind => usageAllowed kind slotClass p.usage
    | none => false

/-- The binding a request gives: absent, explicit, or "current", computed from the chains as they stand (R8). -/
def givenBinding (form : Nat) (chains : Byte) (bound : Bytes) (m : Ism) : Option Binding :=
  match form with
  | 1 => some ⟨chains, bound⟩
  | 2 => some ⟨chains, m.chainsDigest chains⟩
  | _ => none

/-- A use limit as it is carried: 0 for absent (Formats). -/
def givenLimit (limit : Nat) : Option Nat := if limit = 0 then none else some limit

/-- A created slot: ACTIVE with use count 0 (R17). -/
def Policy.newSlot (p : Policy) (slotClass : SlotClass) (material : KeyMaterial) (m : Ism) : KeySlot where
  slotClass := slotClass
  state := .active
  label := p.label
  usage := p.usage
  answerSet := p.answerSet
  binding := givenBinding p.bindingForm p.chains p.bound m
  useLimit := givenLimit p.useLimit
  useCount := 0
  material := material

/-- The right that a class of slots needs of a request that manages it (R2). -/
def SlotClass.right : SlotClass → Nat
  | .owner => rightOwner
  | .system | .factory => rightAdmin

/-- The class a creating request names (R17 check 2). -/
def creatableClass (code : Nat) : Checked SlotClass :=
  match SlotClass.ofCode code with
  | some .system => .ok .system
  | some .owner => .ok .owner
  | _ => .error .badArgument

/-- Checks 1 to 5 of R17. Within check 2 the slot number comes first: a slot 0..3 is answered NOT_PERMITTED whatever class is named, by R2, where
R17 gives BAD_ARGUMENT to a class byte that names FACTORY and no order of the two: the model's choice (log entry 61). -/
def checkCreate (i identity : Nat) (p : Policy) (s : State) : Checked SlotClass := do
  check (decide (i ≤ 23)) .badArgument
  check (decide (4 ≤ i)) .notPermitted
  let slotClass ← creatableClass p.classCode
  check (s.hasRight identity slotClass.right) .notPermitted
  check (p.wellFormed slotClass) .badArgument
  check (s.kept.slot i).isNone .slotOccupied
  check (s.kept.slotLabelFree p.label) .labelTaken
  pure slotClass

/-- Checks shared by the requests that manage an existing slot (R21, R22). An EMPTY slot 0..3 is answered SLOT_EMPTY, by the order of the
checks in R21 and R22, where R2 and R9 answer NOT_PERMITTED to every slot 0..3: the model follows that order (log entry 47). -/
def checkManaged (i identity : Nat) (s : State) : Checked KeySlot := do
  let k ← findSlot i s
  check (decide (4 ≤ i)) .notPermitted
  check (s.hasRight identity k.slotClass.right) .notPermitted
  pure k

/-! ## What a slot shows -/

/-- The coded state of slot `i` (Formats). -/
def Records.slotState (r : Records) (i : Nat) : Byte := slotStateCode ((r.slot i).map (·.state))

/-- The payload of KEY INFO (R11, Formats). -/
def State.slotInfo (s : State) (i : Nat) : Bytes :=
  match s.kept.slot i with
  | none => [if i < 4 then 0 else 3, 0xFF, 0] ++ List.replicate 43 0
  | some k =>
    [k.slotClass.code, k.material.kind.code, slotStateCode (some k.state), k.usage, k.answerSet] ++
      (match k.binding with
        | some b => b.chains :: padTo 32 b.bound
        | none => List.replicate 33 0) ++
      le16 (k.useLimit.getD 0) ++ le16 k.useCount ++ [yesNo (s.suspended i)] ++ le16 k.material.blobLength ++
      labelBytes k.label

/-- The public key of a slot as a reply carries it; nothing for a kind without one. -/
def KeyMaterial.publicBytes (m : KeyMaterial) : Bytes := m.publicKey.getD []

end Sys2Proof.Machine
end

