-- ==== Sys2Proof/Machine/Keys.lean ====
section
/-! DEFINITION. The KEY and BLOB requests (chapter 1) and the completion of key generation (R18). -/

namespace Sys2Proof.Machine

/-- The kinds that have a public key. -/
def publicKinds : List KeyKind := [.signingPair, .verifyPublic]

/-! ## KEY INFO (R11) -/

def serveKeyInfo (_identity : Nat) (payload : Bytes) (s : State) : State :=
  answered (do
    let i ← layout (readByte payload)
    check (decide (i.toNat ≤ 23)) .badArgument
    pure (s.slotInfo i.toNat)) s

def execKeyInfo (identity : Byte) (payload : Bytes) (s : State) : Host.Outcome State Fault Refusal :=
  event true (request .keyInfo serveKeyInfo identity payload) s

/-! ## KEY GENERATE (R18) -/

/-- A slot and a policy, and nothing more. -/
def readSlotPolicy (payload : Bytes) : Option (Nat × Policy) := do
  let (i, bytes) ← takeNumber 1 payload
  let (p, bytes) ← takePolicy bytes
  atEnd bytes
  pure (i, p)

/-- The kinds whose key material the part makes (R18). -/
def generatedKinds : List KeyKind := [.signingPair, .secret]

/-- The kind a policy names is one of some kinds (check 6 of R17). -/
def checkPolicyKind (kinds : List KeyKind) (p : Policy) : Checked Unit :=
  check (kinds.any fun k => KeyKind.ofCode p.kindCode == some k) .badArgument

/-- Key material is being made for a slot (R18). -/
def beginGeneration (i : Nat) (p : Policy) (provision : Bool) (s : State) : State :=
  { s with link := { s.link with service := .generating i p provision } }

def serveKeyGenerate (identity : Nat) (payload : Bytes) (s : State) : State :=
  served (do
    let (i, p) ← layout (readSlotPolicy payload)
    let _ ← checkCreate i identity p s
    checkPolicyKind generatedKinds p
    pure (beginGeneration i p false s)) s

def execKeyGenerate (identity : Byte) (payload : Bytes) (s : State) : Host.Outcome State Fault Refusal :=
  event true (request .keyGenerate serveKeyGenerate identity payload) s

/-! ## KEY_MATERIAL_GENERATED (R18) -/

/-- New key material of a kind, from random bytes (R18). -/
def newMaterial (kindCode : Nat) (random : Bytes) : KeyMaterial :=
  if KeyKind.ofCode kindCode = some .signingPair then .pair (some random) (Config.publicKeyOf random)
  else .secret (some random)

/-- The payload that answers a generated slot: KEY GENERATE adds the label (R18, R185, Formats). -/
def generatedPayload (p : Policy) (provision : Bool) (m : KeyMaterial) : Bytes :=
  slotStateCode (some .active) :: ((if provision then [] else labelBytes p.label) ++ m.publicBytes)

/-- The material has been made: the creating write is handed to the store (R18, R17). The random bytes are a free value (log entry 3). -/
def materialGenerated (s : State) : State :=
  match s.link.service with
  | .generating i p provision =>
    let material := newMaterial p.kindCode (Config.randomBytes s.draws)
    let slotClass := (SlotClass.ofCode p.classCode).getD .factory
    createSlot i (p.newSlot slotClass material s.ism) (.reply (generatedPayload p provision material))
      { s with draws := s.draws + 1, link := { s.link with service := .none } }
  | _ => s

/-- Generation is under way. -/
def State.generating (s : State) : Bool :=
  match s.link.service with
  | .generating _ _ _ => true
  | _ => false

def execKeyMaterialGenerated (s : State) : Host.Outcome State Fault Refusal :=
  event s.generating materialGenerated s

/-! ## KEY IMPORT (R19) -/

/-- What KEY IMPORT carries after its policy: a plain public key, or an unwrapping slot and the wrapped key (R19). -/
def readImport (payload : Bytes) : Option (Nat × Policy × Nat × Bytes) := do
  let (i, bytes) ← takeNumber 1 payload
  let (p, bytes) ← takePolicy bytes
  match KeyKind.ofCode p.kindCode with
  | some .verifyPublic =>
    let (key, rest) ← takeBytes 64 bytes
    atEnd rest
    pure (i, p, 0, key)
  | some .signingPair | some .secret =>
    let (unwrapping, wrapped) ← takeNumber 1 bytes
    pure (i, p, unwrapping, wrapped)
  | _ => pure (i, p, 0, bytes)

/-- The secret of a SECRET slot; a slot that is ACTIVE holds one (R5). -/
def KeyMaterial.secretBytes : KeyMaterial → Bytes
  | .secret (some key) => key
  | _ => []

/-- An unwrapped key as the material of its kind: a valid P-256 private key, or exactly 32 bytes (R19). -/
def importedMaterial (kind : KeyKind) (key : Bytes) : Option KeyMaterial :=
  match kind with
  | .signingPair => if Config.privateKeyValid key then some (.pair (some key) (Config.publicKeyOf key)) else none
  | .secret => if key.length = 32 then some (.secret (some key)) else none
  | _ => none

/-- A wrapped key under an unwrapping slot that passes R10 (R19). -/
def unwrapImport (kind : KeyKind) (unwrapping identity : Nat) (wrapped : Bytes) (s : State) : Checked KeyMaterial := do
  let k ← checkUse unwrapping identity .secret useUnwrap s
  check (decide (1 ≤ wrapped.length) && decide (wrapped.length ≤ 256)) .badArgument
  layout ((Config.unwrapKey k.material.secretBytes wrapped).bind (importedMaterial kind))

/-- Check 6 for KEY IMPORT: the key material, and the unwrapping slot to be counted (R19). -/
def importMaterial (p : Policy) (unwrapping identity : Nat) (key : Bytes) (s : State) :
    Checked (KeyMaterial × Option Nat) :=
  match KeyKind.ofCode p.kindCode with
  | some .verifyPublic => do
    check (Config.pointOnCurve key) .badArgument
    pure (.verifyPublic key, none)
  | some .signingPair => do
    let m ← unwrapImport .signingPair unwrapping identity key s
    pure (m, some unwrapping)
  | some .secret => do
    let m ← unwrapImport .secret unwrapping identity key s
    pure (m, some unwrapping)
  | _ => .error .badArgument

/-- What follows the write of an imported slot: the count of the unwrapping slot, or the reply (R19). -/
def importAfter (counted : Option Place) (payload : Bytes) : After :=
  match counted with
  | some unwrapping => .countUnwrap unwrapping payload
  | none => .reply payload

/-- KEY IMPORT (R19). The slot's state that the reply carries is ACTIVE, fixed here: an owner reset that empties a new OWNER slot before the
count write does not change it, a point on which R19 is silent: the model's choice (log entry 37). -/
def serveKeyImport (identity : Nat) (payload : Bytes) (s : State) : State :=
  served (do
    let (i, p, unwrapping, key) ← layout (readImport payload)
    let slotClass ← checkCreate i identity p s
    let (material, counted) ← importMaterial p unwrapping identity key s
    pure (createSlot i (p.newSlot slotClass material s.ism)
      (importAfter (counted.map s.kept.slotPlace) (slotStateCode (some .active) :: material.publicBytes)) s)) s

def execKeyImport (identity : Byte) (payload : Bytes) (s : State) : Host.Outcome State Fault Refusal :=
  event true (request .keyImport serveKeyImport identity payload) s

/-! ## KEY EXPORT PUBLIC (R12) -/

def serveKeyExportPublic (identity : Nat) (payload : Bytes) (s : State) : State :=
  answered (do
    let i ← layout (readByte payload)
    let k ← findSlot i.toNat s
    checkKind publicKinds k
    checkAnswers identity k
    pure k.material.publicBytes) s

def execKeyExportPublic (identity : Byte) (payload : Bytes) (s : State) : Host.Outcome State Fault Refusal :=
  event true (request .keyExportPublic serveKeyExportPublic identity payload) s

/-! ## KEY SIGN (R14) -/

/-- A slot, a form that the coding names, and the matter (Formats). -/
def readSign (payload : Bytes) : Option (Nat × Bool × Bytes) := do
  let (i, bytes) ← takeNumber 1 payload
  let (form, matter) ← takeNumber 1 bytes
  match form with
  | 0 => pure (i, false, matter)
  | 1 => pure (i, true, matter)
  | _ => none

/-- The private key of a slot's pair; an ACTIVE slot holds one (R5). -/
def KeyMaterial.privateBytes : KeyMaterial → Bytes
  | .pair (some key) _ => key
  | _ => []

/-- A link-origin SIGN operation joins the Signature Engine's list with a copy of the slot's private key, and the request goes on when it
completes (R14, R118, R23). A slot that has become EMPTY, be it created anew since (R120, R124, log entry 53), is answered SLOT_EMPTY (R118,
log entry 19), and one that is found RETIRED WRONG_STATE, as R5 refuses every use of one (log entry 38). -/
def placeSign (p : Place) (digest : Bytes) (service : Service) (s : State) : State :=
  served (do
    let k ← present (s.kept.slotAt p) .slotEmpty
    checkActive k
    pure { s with
      engine := s.engine ++ [.sign p.index k.material.privateBytes digest]
      link := { s.link with service := service } }) s

/-- Data of 1..1000 bytes (R14, R16). -/
def dataFits (bytes : Bytes) : Bool := decide (1 ≤ bytes.length) && decide (bytes.length ≤ 1000)

def serveKeySign (identity : Nat) (payload : Bytes) (s : State) : State :=
  served (do
    let (i, data, matter) ← layout (readSign payload)
    let _ ← checkUse i identity .signingPair useSign s
    check (if data then dataFits matter else matter.length == 32) .badArgument
    let p := s.kept.slotPlace i
    pure (if data then beginDigest none matter (.signDigest p) s else placeSign p matter (.signEngine p) s)) s

def execKeySign (identity : Byte) (payload : Bytes) (s : State) : Host.Outcome State Fault Refusal :=
  event true (request .keySign serveKeySign identity payload) s

/-! ## KEY DERIVE (R16) -/

def serveKeyDerive (identity : Nat) (payload : Bytes) (s : State) : State :=
  served (do
    let (i, context) ← layout (takeNumber 1 payload)
    let k ← checkUse i identity .secret useDerive s
    check (dataFits context) .badArgument
    pure (beginDigest (some k.material.secretBytes) context (.deriveDigest (s.kept.slotPlace i)) s)) s

def execKeyDerive (identity : Byte) (payload : Bytes) (s : State) : Host.Outcome State Fault Refusal :=
  event true (request .keyDerive serveKeyDerive identity payload) s

/-! ## KEY RESTRICT (R21) -/

/-- The new policy of KEY RESTRICT (Formats). -/
def readRestrict (payload : Bytes) : Option (Nat × Byte × Byte × Nat × Nat × Byte × Bytes) := do
  let (i, bytes) ← takeNumber 1 payload
  let (usage, bytes) ← takeByte bytes
  let (answerSet, bytes) ← takeByte bytes
  let (limit, bytes) ← takeNumber 2 bytes
  let (form, bytes) ← takeNumber 1 bytes
  let (chains, bytes) ← takeByte bytes
  let (bound, bytes) ← takeBytes (if form = 1 then 32 else 0) bytes
  atEnd bytes
  pure (i, usage, answerSet, limit, form, chains, bound)

def serveKeyRestrict (identity : Nat) (payload : Bytes) (s : State) : State :=
  served (do
    let (i, usage, answerSet, limit, form, chains, bound) ← layout (readRestrict payload)
    let k ← checkManaged i identity s
    checkActive k
    check (bindingFits form chains) .badArgument
    let binding := givenBinding form chains bound s.ism
    check (k.narrowsTo usage answerSet (givenLimit limit) binding) .badArgument
    pure (handSlot k.slotClass (.slotRestrict (s.kept.slotPlace i) usage answerSet (givenLimit limit) binding)
      (.replyKeyInfo i) s)) s

def execKeyRestrict (identity : Byte) (payload : Bytes) (s : State) : Host.Outcome State Fault Refusal :=
  event true (request .keyRestrict serveKeyRestrict identity payload) s

/-! ## KEY RETIRE and KEY ERASE (R22) -/

def serveKeyRetire (identity : Nat) (payload : Bytes) (s : State) : State :=
  served (do
    let i ← layout (readByte payload)
    let k ← checkManaged i.toNat identity s
    let reply := [slotStateCode (some .retired)]
    pure (if k.state = .retired then answer .ok reply s
      else handSlot k.slotClass (.slotRetire (s.kept.slotPlace i.toNat)) (.reply reply) s)) s

def execKeyRetire (identity : Byte) (payload : Bytes) (s : State) : Host.Outcome State Fault Refusal :=
  event true (request .keyRetire serveKeyRetire identity payload) s

def serveKeyErase (identity : Nat) (payload : Bytes) (s : State) : State :=
  served (do
    let i ← layout (readByte payload)
    let k ← checkManaged i.toNat identity s
    pure (handSlot k.slotClass (.slotErase (s.kept.slotPlace i.toNat)) (.reply []) s)) s

def execKeyErase (identity : Byte) (payload : Bytes) (s : State) : Host.Outcome State Fault Refusal :=
  event true (request .keyErase serveKeyErase identity payload) s

/-! ## BLOB WRITE (R20) -/

/-- A chunk is 1..512 bytes (R20). -/
def chunkFits (chunk : Bytes) : Bool := decide (1 ≤ chunk.length) && decide (chunk.length ≤ 512)

/-- The first chunk creates the slot (R20, R17). R20 has the policy's kind be BLOB, and names neither a status nor a place in the checks of
R17 for a well-formed policy of another kind: that it is refused BAD_ARGUMENT, first at check 6, as R18 and R19 refuse a kind that is not
theirs, is the model's choice (log entry 62). -/
def firstChunk (i identity : Nat) (rest : Bytes) (s : State) : Checked State := do
  let (p, chunk) ← layout (takePolicy rest)
  let slotClass ← checkCreate i identity p s
  checkPolicyKind [.blob] p
  check (chunkFits chunk) .badArgument
  pure (createSlot i (p.newSlot slotClass (.blob chunk) s.ism) (.replyBlob i false) s)

/-- A later chunk is appended (R20). R20 lists what the slot must pass and does not say that the list is an order, and R2 answers NOT_PERMITTED to
every request that names slot 0..3: that the list is followed, so that an EMPTY, non-BLOB or RETIRED slot 0..3 is answered SLOT_EMPTY,
BAD_ARGUMENT or WRONG_STATE, is the model's choice (log entry 59). -/
def laterChunk (i identity offset : Nat) (chunk : Bytes) (s : State) : Checked State := do
  check (decide (i ≤ 23) && chunkFits chunk) .badArgument
  let k ← findSlot i s
  checkKind [.blob] k
  checkActive k
  check (decide (4 ≤ i) && s.hasRight identity k.slotClass.right) .notPermitted
  checkRoom offset chunk k
  pure (handSlot k.slotClass (.slotAppend (s.kept.slotPlace i) offset chunk) (.replyBlob i false) s)

def serveBlobWrite (identity : Nat) (payload : Bytes) (s : State) : State :=
  served (do
    let (i, bytes) ← layout (takeNumber 1 payload)
    let (offset, rest) ← layout (takeNumber 2 bytes)
    if offset = 0 then firstChunk i identity rest s else laterChunk i identity offset rest s) s

def execBlobWrite (identity : Byte) (payload : Bytes) (s : State) : Host.Outcome State Fault Refusal :=
  event true (request .blobWrite serveBlobWrite identity payload) s

/-! ## BLOB READ (R13) -/

/-- The data of a blob. -/
def KeyMaterial.blobData : KeyMaterial → Bytes
  | .blob data => data
  | _ => []

/-- A slot, an offset and a count (Formats). -/
def readBlobRead (payload : Bytes) : Option (Nat × Nat × Nat) := do
  let (i, bytes) ← takeNumber 1 payload
  let (offset, bytes) ← takeNumber 2 bytes
  let (count, bytes) ← takeNumber 2 bytes
  atEnd bytes
  pure (i, offset, count)

def serveBlobRead (identity : Nat) (payload : Bytes) (s : State) : State :=
  answered (do
    let (i, offset, count) ← layout (readBlobRead payload)
    let k ← findSlot i s
    checkKind [.blob] k
    checkUsage useReadBlob k
    checkAnswers identity k
    checkBinding k s
    check (decide (offset ≤ k.material.blobLength)) .badArgument
    pure (le16 k.material.blobLength ++ slice offset (min count 1024) k.material.blobData)) s

def execBlobRead (identity : Byte) (payload : Bytes) (s : State) : Host.Outcome State Fault Refusal :=
  event true (request .blobRead serveBlobRead identity payload) s

end Sys2Proof.Machine
end

