-- ==== Sys2Proof/Machine/Images.lean ====
section
/-! DEFINITION. The requests of Image Acceptance (chapter 5) and the verification deadline (R104). -/

namespace Sys2Proof.Machine

/-- The lifecycle is FIELD: the first check of VERIFY STAGED, ARM TRIAL and CONFIRM IMAGE (R184). -/
def checkField (s : State) : Checked Unit := check (s.kept.lifecycle == .field) .wrongState

/-! ## VERIFY STAGED (R97) -/

/-- Step 3 of the checks of VERIFY STAGED: the staged states it accepts (R97). -/
def checkStageable : Staged → Checked Unit
  | .none | .verified _ _ | .rejected _ _ _ => .ok ()
  | .verifying => .error .busy
  | .armed _ _ | .trial _ _ => .error .wrongState

def serveVerifyStaged (identity : Nat) (payload : Bytes) (s : State) : State :=
  served (do
    layout (readNothing payload)
    checkField s
    check (s.gate.state == .running) .wrongState
    checkStageable s.kept.staged
    pure (s.handOver (.stagedPut .verifying) (.accept identity))) s

def execVerifyStaged (identity : Byte) (payload : Bytes) (s : State) : Host.Outcome State Fault Refusal :=
  event true (request .verifyStaged serveVerifyStaged identity payload) s

/-! ## VERIFICATION_DEADLINE_EXPIRY (R104) -/

/-- The verification deadline has been reached (R104). -/
def State.verificationDue (s : State) : Bool :=
  reached (s.image.verification.bind (·.deadline)) s.uptime

def execVerificationDeadlineExpiry (s : State) : Host.Outcome State Fault Refusal :=
  event s.verificationDue (reject .timeout) s

/-! ## IMAGE STATUS (R107) -/

/-- The fields known: the verification's once its manifest has passed the layout check, otherwise the staged record's (R107). -/
def State.shownFields (s : State) : Option ImageFields := s.image.knownFields.or s.kept.staged.fields

/-- The segment progress: the verification's while one is in progress, otherwise as stored (R107). -/
def State.shownProgress (s : State) : Nat :=
  match s.image.verification with
  | some v => v.progress
  | none => s.kept.staged.progress

/-- The known fields as a reply carries them: a mark, line, epoch, build, authority, segment count (Formats). -/
def knownBytes : Option ImageFields → Bytes
  | some f =>
    [1, byteOf f.line] ++ le16 f.epoch ++ le32 f.build ++ [byteOf f.authority, byteOf f.segments]
  | none => List.replicate 10 0

/-- The reject reason and its segment index (Formats). -/
def Staged.reasonBytes : Staged → Bytes
  | .rejected _ _ (.segmentMismatch index) => [RejectReason.code (.segmentMismatch index), byteOf index]
  | .rejected _ _ reason => [reason.code, 0]
  | _ => [0, 0]

/-- Whether a verification is in progress, its phase, and the milliseconds left to its deadline (Formats). While the update that completes a
verification is made, the verification shows as in progress with 0 ms left: its deadline was stopped at the last outcome, which R104 says and
R103 puts at the end of the update: the model's choice between them (log entry 40). -/
def State.verificationBytes (s : State) : Bytes :=
  match s.image.verification with
  | some v => [1, v.phase.code] ++ le16 ((v.deadline.getD s.uptime) - s.uptime)
  | none => [0, 0, 0, 0]

def serveImageStatus (_identity : Nat) (payload : Bytes) (s : State) : State :=
  answered (do
    layout (readNothing payload)
    pure ([s.kept.staged.code] ++ knownBytes s.shownFields ++ [byteOf s.shownProgress] ++ s.kept.staged.reasonBytes ++
      s.verificationBytes ++ [byteOf s.kept.selector.tries, s.kept.selector.active.code] ++
      le16 s.port.violations)) s

def execImageStatus (identity : Byte) (payload : Bytes) (s : State) : Host.Outcome State Fault Refusal :=
  event true (request .imageStatus serveImageStatus identity payload) s

/-! ## ABORT IMAGE (R109) -/

/-- The staged record is written NONE, and the request answered (R109). -/
def discardStaged (s : State) : State := s.handOver (.stagedPut .none) (.reply [])

/-- The effect of ABORT IMAGE in each staged state (R109). -/
def abortStaged (s : State) : Checked State :=
  match s.kept.staged with
  | .none => .ok (answer .ok [] s)
  | .verifying => .ok (discardStaged (stopVerification s))
  | .verified _ _ | .rejected _ _ _ => .ok (discardStaged s)
  | .armed _ _ => .ok (s.handOver .disarm (.reply []))
  | .trial _ _ => .error .wrongState

def serveAbortImage (_identity : Nat) (payload : Bytes) (s : State) : State :=
  served (do
    layout (readNothing payload)
    abortStaged s) s

def execAbortImage (identity : Byte) (payload : Bytes) (s : State) : Host.Outcome State Fault Refusal :=
  event true (request .abortImage serveAbortImage identity payload) s

/-! ## ARM TRIAL (R110) -/

/-- The tries taken: 2 for an empty payload; a tries byte is taken as 1..3 (R110). -/
def readTries (payload : Bytes) : Option Nat :=
  match payload with
  | [] => some 2
  | [tries] => some (max 1 (min 3 tries.toNat))
  | _ => none

/-- The fields of a staged record in VERIFIED (R110). -/
def Staged.verifiedFields : Staged → Option ImageFields
  | .verified f _ => some f
  | _ => Option.none

def serveArmTrial (_identity : Nat) (payload : Bytes) (s : State) : State :=
  served (do
    let tries ← layout (readTries payload)
    checkField s
    let f ← present s.kept.staged.verifiedFields .wrongState
    check (f.line == 0) .badArgument
    pure (s.handOver (.arm tries) (.reply [byteOf tries]))) s

def execArmTrial (identity : Byte) (payload : Bytes) (s : State) : Host.Outcome State Fault Refusal :=
  event true (request .armTrial serveArmTrial identity payload) s

/-! ## CONFIRM IMAGE (R112, R113) -/

/-- The fields of a staged record in VERIFIED or TRIAL (R112 check 3). -/
def Staged.confirmable : Staged → Option ImageFields
  | .verified f _ | .trial f _ => some f
  | _ => Option.none

/-- The staged state is TRIAL (R112). -/
def Staged.isTrial : Staged → Bool
  | .trial _ _ => true
  | _ => false

/-- The further conditions of line 0: TRIAL, RUNNING, and a booted set with its trial flag set (R112). -/
def State.trialRunning (s : State) : Bool :=
  s.kept.staged.isTrial && s.gate.state == .running && s.gate.trialBooted

def serveConfirmImage (_identity : Nat) (payload : Bytes) (s : State) : State :=
  served (do
    let carried ← layout (readByte payload)
    let line := carried.toNat
    checkField s
    check (decide (line ≤ 3)) .badArgument
    let f ← present s.kept.staged.confirmable .wrongState
    check (f.line == line) .badArgument
    if line = 0 then do
      check s.trialRunning .wrongState
      pure (s.handOver .confirmBoot (.replyConfirm 0))
    else do
      check (!s.kept.staged.isTrial) .wrongState
      pure (s.handOver (.confirmLine line) (.replyConfirm line))) s

def execConfirmImage (identity : Byte) (payload : Bytes) (s : State) : Host.Outcome State Fault Refusal :=
  event true (request .confirmImage serveConfirmImage identity payload) s

/-- The payload that answers CONFIRM IMAGE (R112, R113, Formats). -/
def Records.confirmation (r : Records) (line : Nat) : Bytes :=
  if line = 0 then r.selector.active.code :: le16 (r.counter 0) else le16 (r.counter line)

/-! ## READ COUNTERS (R108) -/

/-- A golden set as READ COUNTERS shows it (Formats). -/
def GoldenSet.summary (g : GoldenSet) : Bytes :=
  [yesNo g.valid] ++ le16 g.epoch ++ le32 g.build ++ [byteOf g.regions.length]

/-- The flash layout as READ COUNTERS shows it (Formats). -/
def layoutBytes : Option Layout → Bytes
  | some l => [1] ++ le32 l.bankSize ++ le32 l.recoverySize
  | none => List.replicate 9 0

def serveReadCounters (_identity : Nat) (payload : Bytes) (s : State) : State :=
  answered (do
    layout (readNothing payload)
    pure ((List.range 4).flatMap (fun line => le16 (s.kept.counter line)) ++ [s.kept.selector.active.code] ++
      s.kept.goldenA.summary ++ s.kept.goldenB.summary ++ layoutBytes s.kept.layout)) s

def execReadCounters (identity : Byte) (payload : Bytes) (s : State) : Host.Outcome State Fault Refusal :=
  event true (request .readCounters serveReadCounters identity payload) s

end Sys2Proof.Machine
end

