-- ==== Sys2Proof/Machine/Vault.lean ====
section
/-! DEFINITION. The Owner Vault: credentials, penalties, decay and owner reset (chapter 7). -/

namespace Sys2Proof.Machine

/-! ## Penalties and decay (R133, R136) -/

/-- The penalty d(f) in seconds (R133). -/
def penalty (v : VaultRecord) (f : Nat) : Nat :=
  if f ≤ v.free then 0 else min v.cap (v.base * 2 ^ (f - v.free - 1))

/-- The deadline that a failure sets at an uptime second: absent when d(f) is 0 (R133, R135). -/
def penaltyFrom (v : VaultRecord) (second f : Nat) : Option Nat :=
  if penalty v f = 0 then none else some (second + penalty v f)

/-- The penalty deadline of record `i` (R126). -/
def VaultUnit.penaltyOf (u : VaultUnit) (i : Nat) : Option Nat := (u.penalty[i]?).join

/-- The decay clock of record `i` (R126). -/
def VaultUnit.clockOf (u : VaultUnit) (i : Nat) : Nat := (u.decay[i]?).getD 0

def VaultUnit.withPenalty (u : VaultUnit) (i : Nat) (deadline : Option Nat) : VaultUnit :=
  { u with penalty := u.penalty.setIfInBounds i deadline }

def VaultUnit.withClock (u : VaultUnit) (i second : Nat) : VaultUnit :=
  { u with decay := u.decay.setIfInBounds i second }

/-- The forgiveness interval in seconds (R136). -/
def VaultRecord.interval (v : VaultRecord) : Nat := v.forgive * 3600

/-- A decay step of record `i` is due (R136). It is reckoned from the clock as it stands: a charge handed over by a dropped request sets the
clock at the completion of its write, and until then a step due under the old clock is taken, on which R136 and R146 are silent: the model's
choice (log entry 50). -/
def State.decayDue (s : State) (i : Nat) : Bool :=
  match s.kept.cred i with
  | some c => decide (0 < c.failures) && decide (s.vault.clockOf i + s.kept.vault.interval ≤ s.second)
  | none => false

/-- A decay step of record `i` is begun: it holds the vault, under the interval as it stands in the test that finds it due (R136, R138,
R145). -/
def beginDecay (i : Nat) (s : State) : State :=
  State.handOver (.credDecay (s.kept.credPlace i) s.kept.vault.interval) (.decayed i)
    { s with vault := { s.vault with holder := some .decay } }

def execDecayStep (record : Nat) (s : State) : Host.Outcome State Fault Refusal :=
  event (s.decayDue record && s.vault.holder.isNone) (beginDecay record) s

/-! ## Finding a record (R128) -/

/-- Record `i` is present and carries a label. -/
def Records.credLabelled (r : Records) (label : Bytes) (i : Nat) : Bool :=
  match r.cred i with
  | some c => c.label == label
  | none => false

/-- The present record that carries a label, with its index (R128 step 2). -/
def Records.findCred (r : Records) (label : Bytes) : Option (Nat × Credential) :=
  ((List.range 16).find? (r.credLabelled label)).bind fun i => (r.cred i).map fun c => (i, c)

/-- The lowest index that is not present (R132). -/
def Records.freeCred (r : Records) : Option Nat := (List.range 16).find? fun i => (r.cred i).isNone

/-- A record of class OWNER (R126). -/
def Credential.isOwner (c : Credential) : Bool :=
  match c.credClass with
  | .owner => true
  | .factory _ _ => false

/-- The index at which a record with a label is written: for a FACTORY record that of the FACTORY record which already carries the label,
and otherwise the lowest that is not present (R132, R186). -/
def Records.credIndex (r : Records) (label : Bytes) (owner : Bool) : Checked Nat :=
  match r.findCred label with
  | some (i, c) => if owner || c.isOwner then .error .labelTaken else .ok i
  | none => present r.freeCred .slotOccupied

/-- Steps 1 and 2: a label of 1..16 bytes that a present record carries (R128). -/
def findLabelled (label : Bytes) (s : State) : Checked (Nat × Credential) := do
  check (labelFits label) .badArgument
  present (s.kept.findCred label) .badArgument

/-- Step 4: the requester is in the record's answer set (R128). -/
def checkCredAnswers (identity : Nat) (c : Credential) : Checked Unit := check (inSet c.answerSet identity) .notPermitted

/-- Step 7: the presence window is open, where it is needed (R128, R129). -/
def checkPresence (needed : Bool) (s : State) : Checked Unit := check (!needed || s.present) .noPresence

/-- A request that needed presence and is taken consumes the window (R129). -/
def consume (needed : Bool) (s : State) : State := if needed then closeWindow s else s

/-- A passphrase is 1..128 bytes (R127). -/
def passphraseFits (p : Bytes) : Bool := decide (1 ≤ p.length) && decide (p.length ≤ 128)

/-- The value of a SECRET record is 8..64 bytes (R126). -/
def secretFits (value : Bytes) : Bool := decide (8 ≤ value.length) && decide (value.length ≤ 64)

/-- The request goes on with the VERIFIER value of a passphrase under a label: the keyed digest of (label ‖ 00 ‖ passphrase) under the
vault key (R127). -/
def beginVerifier (label passphrase : Bytes) (service : Service) (s : State) : State :=
  beginDigest (some s.kept.vaultKey) (label ++ [0] ++ passphrase) service s

/-! ## VAULT STATUS (R130) -/

/-- A present record's 29 bytes (Formats). -/
def State.credBytes (s : State) (i : Nat) (c : Credential) : Bytes :=
  [byteOf i, byteOf c.label.length] ++ padTo 16 c.label ++
    [c.kind.code,
      (match c.credClass with
        | .factory _ _ => 0
        | .owner => 1),
      (match c.credClass with
        | .factory _ changed => yesNo changed
        | .owner => 0),
      c.answerSet, yesNo c.sealing.isSome, yesNo c.presence, byteOf c.failures] ++
    le32 ((s.vault.penaltyOf i).getD 0 - s.second)

/-- The present records, in order of index. -/
def Records.presentCreds (r : Records) : List (Nat × Credential) :=
  (List.range 16).filterMap fun i => (r.cred i).map fun c => (i, c)

/-- The payload of VAULT STATUS (R130, Formats). -/
def State.vaultStatus (s : State) : Bytes :=
  let v := s.kept.vault
  [yesNo v.claimed] ++ le32 v.ownerTag.toNat ++ [byteOf v.free, byteOf v.base] ++ le32 v.cap ++
    [byteOf v.forgive, yesNo s.present, byteOf s.kept.presentCreds.length] ++
    s.kept.presentCreds.flatMap fun (i, c) => s.credBytes i c

def serveVaultStatus (_identity : Nat) (payload : Bytes) (s : State) : State :=
  answered (do
    layout (readNothing payload)
    pure s.vaultStatus) s

def execVaultStatus (identity : Byte) (payload : Bytes) (s : State) : Host.Outcome State Fault Refusal :=
  event true (request .vaultStatus serveVaultStatus identity payload) s

/-! ## VAULT CLAIM (R131) -/

def serveVaultClaim (_identity : Nat) (payload : Bytes) (s : State) : State :=
  served (do
    check (payload.length == 4 && number payload != 0) .badArgument
    check (!s.kept.vault.claimed) .wrongState
    checkPresence true s
    pure ((consume true s).handOver (.vaultClaim (BitVec.ofNat 32 (number payload))) (.reply payload))) s

def execVaultClaim (identity : Byte) (payload : Bytes) (s : State) : Host.Outcome State Fault Refusal :=
  event true (request .vaultClaim serveVaultClaim identity payload) s

/-! ## CRED ENROLL (R132) -/

/-- The kind a credential form names (Formats). -/
def CredForm.kind (f : CredForm) : Option CredKind :=
  match f.kindCode with
  | 0 => some .verifier
  | 1 => some .secret
  | _ => none

/-- The fields of a credential are well formed (R132 check 1). -/
def CredForm.wellFormed (f : CredForm) : Bool :=
  labelFits f.label && f.answerSet != 0 && decide (f.presenceCode ≤ 1) && bindingFits f.sealForm f.chains &&
    match f.kind with
    | some .verifier => passphraseFits f.value && f.sealForm == 0
    | some .secret => secretFits f.value
    | none => false

/-- The record that a form makes, with a value and a seal taken from the chains as they stand (R132, R186). -/
def CredForm.record (f : CredForm) (credClass : CredClass) (value : Bytes) (m : Ism) : Credential where
  label := f.label
  kind := f.kind.getD .verifier
  credClass := credClass
  value := value
  answerSet := f.answerSet
  sealing := givenBinding f.sealForm f.chains f.bound m
  presence := f.presenceCode == 1
  failures := 0

/-- Checks 2 to 4 of CRED ENROLL (R132). -/
def checkEnrol (label : Bytes) (s : State) : Checked Unit := do
  let _ ← s.kept.credIndex label true
  check (s.kept.mayHold true) .wrongState

/-- The write of an enrolled record, with checks 2 to 4 made again (R132). -/
def writeEnrolled (f : CredForm) (value : Bytes) (s : State) : State :=
  served (do
    checkEnrol f.label s
    pure (s.handOver (.credPut (f.record .owner value s.ism)) (.replyIndex f.label))) s

def serveCredEnroll (_identity : Nat) (payload : Bytes) (s : State) : State :=
  served (do
    let f ← layout (readCredForm payload)
    check f.wellFormed .badArgument
    checkEnrol f.label s
    pure (if f.kind = some .verifier then beginVerifier f.label f.value (.enrolling f) s
      else writeEnrolled f f.value s)) s

def execCredEnroll (identity : Byte) (payload : Bytes) (s : State) : Host.Outcome State Fault Refusal :=
  event true (request .credEnroll serveCredEnroll identity payload) s

/-! ## CRED CHECK (R134) -/

/-- The penalty test (R134): the seconds to a deadline that lies ahead. -/
def State.waitFor (s : State) (i : Nat) : Option Nat :=
  match s.vault.penaltyOf i with
  | some deadline => if s.second < deadline then some (deadline - s.second) else none
  | none => none

/-- The penalty test, then the charge, whose write completes before the candidate is compared (R134). The count before the charge (R135,
R192) is the count held when the charge is handed over, while the charged count is the one at the write's completion; the two differ by more
than one where an earlier charge of a dropped request is still in the store: the model's choice (log entry 42). -/
def charge (i : Nat) (c : Credential) (candidate : Bytes) (newValue : Option Bytes) (s : State) : State :=
  match s.waitFor i with
  | some seconds => answer .wait (le32 seconds) s
  | none =>
    (consume (newValue.isSome && c.presence) s).handOver (.credCharge (s.kept.credPlace i) s.second)
      (.compare (s.kept.credPlace i) c.failures candidate newValue)

def serveCredCheck (identity : Nat) (payload : Bytes) (s : State) : State :=
  served (do
    let (label, candidate) ← layout (takeCounted payload)
    check (passphraseFits candidate) .badArgument
    let (i, c) ← findLabelled label s
    check (c.kind == .verifier) .badArgument
    checkCredAnswers identity c
    pure (charge i c candidate none s)) s

def execCredCheck (identity : Byte) (payload : Bytes) (s : State) : Host.Outcome State Fault Refusal :=
  event true (request .credCheck serveCredCheck identity payload) s

/-- The charge has been written: the candidate's value is computed (R135). -/
def beginCompare (p : Place) (before : Nat) (candidate : Bytes) (newValue : Option Bytes) (s : State) : State :=
  match s.kept.credAt p with
  | some c => beginVerifier c.label candidate (.comparing p before newValue) s
  | none => refuse .badArgument s

/-- A match: the failure count is cleared, or the new passphrase's value is computed (R135, R140). -/
def credMatched (p : Place) (c : Credential) (newValue : Option Bytes) (s : State) : State :=
  match newValue with
  | none => s.handOver (.credMatch p) (.reply [])
  | some new => beginVerifier c.label new (.changing p true) s

/-- A mismatch: the penalty, the reply, the PENALTY flag where the count first goes above VAULT_FREE, and the condition event (R135). The
deadline is reckoned from the second of the charge, which the decay clock holds, and with the parameters as they stand at the comparison: a
SET PARAMETER of a dropped request may have changed them since the hand-over of the charge, on which R133 is silent: the model's choice (log
entry 49). -/
def credMismatched (i before : Nat) (c : Credential) (s : State) : State :=
  let v := s.kept.vault
  let f := c.failures
  let s := { s with vault := s.vault.withPenalty i (penaltyFrom v (s.vault.clockOf i) f) }
  let s := answer .noMatch (le32 (penalty v f) ++ [byteOf f]) s
  fire .penaltyLevel f (if v.free < f ∧ before ≤ v.free then s.raise .penalty else s)

/-- The candidate's value has been computed and is compared with the record's (R135). A record that a dropped request's write has removed by
then, be its place taken anew since, is answered as one that no label names (log entry 53). -/
def compared (p : Place) (before : Nat) (newValue : Option Bytes) (value : Bytes) (s : State) : State :=
  match s.kept.credAt p with
  | some c => if value == c.value then credMatched p c newValue s else credMismatched p.index before c s
  | none => refuse .badArgument s

/-! ## CRED RETRIEVE (R139) -/

def serveCredRetrieve (identity : Nat) (payload : Bytes) (s : State) : State :=
  answered (do
    let label ← layout (readLabel payload)
    let (_, c) ← findLabelled label s
    check (c.kind == .secret) .badArgument
    checkCredAnswers identity c
    check (s.ism.bindingMatches c.sealing) .bindingMismatch
    pure (byteOf c.value.length :: c.value)) s

def execCredRetrieve (identity : Byte) (payload : Bytes) (s : State) : Host.Outcome State Fault Refusal :=
  event true (request .credRetrieve serveCredRetrieve identity payload) s

/-! ## CRED CHANGE (R140, R141) -/

/-- A label, a new value, and an old passphrase that may be absent (Formats). -/
def readChange (payload : Bytes) : Option (Bytes × Bytes × Bytes) := do
  let (label, bytes) ← takeCounted payload
  let (new, bytes) ← takeCounted bytes
  let (old, bytes) ← takeCounted bytes
  atEnd bytes
  pure (label, new, old)

/-- CRED CHANGE on a VERIFIER record (R140): with the old passphrase it is charged and compared; without it the window stands in its
place. Where the old passphrase is carried and the record needs presence, the window is tested before the penalty: R128, R129 and R150 put
the window last and R140 and R134 put the penalty test after R128, which leaves the order of the two open: the model's choice (log entry
48). -/
def changeVerifier (i identity : Nat) (c : Credential) (new old : Bytes) (s : State) : Checked State := do
  check (passphraseFits new && decide (old.length ≤ 128)) .badArgument
  checkCredAnswers identity c
  checkPresence (c.presence || old.isEmpty) s
  pure (if old.isEmpty then beginVerifier c.label new (.changing (s.kept.credPlace i) false) (consume true s)
    else charge i c old (some new) s)

/-- CRED CHANGE on a SECRET record (R141). -/
def changeSecret (i identity : Nat) (c : Credential) (new old : Bytes) (s : State) : Checked State := do
  check (secretFits new && old.isEmpty) .badArgument
  checkCredAnswers identity c
  check (s.hasRight identity rightOwner) .notPermitted
  checkPresence c.presence s
  pure ((consume c.presence s).handOver (.credValue (s.kept.credPlace i) new false false) (.reply []))

def serveCredChange (identity : Nat) (payload : Bytes) (s : State) : State :=
  served (do
    let (label, new, old) ← layout (readChange payload)
    let (i, c) ← findLabelled label s
    match c.kind with
    | .verifier => changeVerifier i identity c new old s
    | .secret => changeSecret i identity c new old s) s

def execCredChange (identity : Byte) (payload : Bytes) (s : State) : Host.Outcome State Fault Refusal :=
  event true (request .credChange serveCredChange identity payload) s

/-- A new passphrase's value has been computed and is written with the failure count cleared; without the old passphrase the decay clock
is set anew (R140). -/
def writeChanged (p : Place) (old : Bool) (value : Bytes) (s : State) : State :=
  s.handOver (.credValue p value true (!old)) (.reply [])

/-! ## CRED REMOVE (R142) -/

def serveCredRemove (_identity : Nat) (payload : Bytes) (s : State) : State :=
  served (do
    let label ← layout (readLabel payload)
    let (i, c) ← findLabelled label s
    check c.isOwner .notPermitted
    checkPresence c.presence s
    pure ((consume c.presence s).handOver (.credRemove (s.kept.credPlace i)) (.reply []))) s

def execCredRemove (identity : Byte) (payload : Bytes) (s : State) : Host.Outcome State Fault Refusal :=
  event true (request .credRemove serveCredRemove identity payload) s

/-! ## Owner reset (R143, R144) -/

/-- An owner reset holds the vault for the time of its store update (R145). -/
def beginReset (request : Bool) (s : State) : State :=
  State.handOver .ownerReset (.resetDone request) { s with vault := { s.vault with holder := some .reset } }

def serveOwnerReset (_identity : Nat) (payload : Bytes) (s : State) : State :=
  served (do
    layout (readNothing payload)
    checkPresence true s
    pure (beginReset true (consume true s))) s

def execOwnerReset (identity : Byte) (payload : Bytes) (s : State) : Host.Outcome State Fault Refusal :=
  event true (request .ownerReset serveOwnerReset identity payload) s

/-- An owner reset from the Reaction Table is next in turn and the vault is free (R145). -/
def State.resetNext (s : State) : Bool := s.vault.holder.isNone && s.vault.waiting.head? == some .reset

/-- The owner reset that waits is taken (R145, R144). -/
def takeReset (s : State) : State :=
  beginReset false { s with vault := { s.vault with waiting := s.vault.waiting.tail } }

def execOwnerResetUpdate (s : State) : Host.Outcome State Fault Refusal := event s.resetNext takeReset s

end Sys2Proof.Machine
end

