-- ==== Sys2Proof/Machine/Factory.lean ====
section
/-! DEFINITION. The factory requests (R185 to R189). -/

namespace Sys2Proof.Machine

/-! ## PROVISION SLOT (R185) -/

/-- Checks 2 to 4 for a form that creates a slot: the policy is well formed for the class FACTORY, the slot is EMPTY, and the label is free
(R185). A policy whose class byte names SYSTEM or OWNER is refused BAD_ARGUMENT at check 2; R185 does not say what it gets: the model's
choice (log entry 45). -/
def checkProvision (i : Nat) (p : Policy) (s : State) : Checked Unit := do
  check (p.classCode == 0 && p.wellFormed .factory) .badArgument
  check (s.kept.slot i).isNone .slotOccupied
  check (s.kept.slotLabelFree p.label) .labelTaken

/-- GENERATE: key material is made inside the part (R185, R18). That another kind is refused BAD_ARGUMENT, first among the form's own checks,
is the model's choice here and in the two forms that follow (log entry 62). -/
def provisionGenerate (i : Nat) (rest : Bytes) (s : State) : Checked State := do
  let (p, bytes) ← layout (takePolicy rest)
  layout (atEnd bytes)
  checkProvision i p s
  checkPolicyKind generatedKinds p
  pure (beginGeneration i p true s)

/-- PUBLIC: a public key on the P-256 curve (R185); another kind is refused BAD_ARGUMENT (log entry 62). -/
def provisionPublic (i : Nat) (rest : Bytes) (s : State) : Checked State := do
  let (p, bytes) ← layout (takePolicy rest)
  let (key, bytes) ← layout (takeBytes 64 bytes)
  layout (atEnd bytes)
  checkProvision i p s
  checkPolicyKind [.verifyPublic] p
  check (Config.pointOnCurve key) .badArgument
  pure (createSlot i (p.newSlot .factory (.verifyPublic key) s.ism) (.reply [slotStateCode (some .active)]) s)

/-- BLOB at offset 0 creates the slot with its first chunk (R185, R20); another kind is refused BAD_ARGUMENT (log entry 62). -/
def provisionFirstChunk (i : Nat) (rest : Bytes) (s : State) : Checked State := do
  let (p, chunk) ← layout (takePolicy rest)
  checkProvision i p s
  checkPolicyKind [.blob] p
  check (chunkFits chunk) .badArgument
  pure (createSlot i (p.newSlot .factory (.blob chunk) s.ism) (.replyBlob i true) s)

/-- BLOB at another offset appends a chunk (R185, R20). The slot passes the checks of R20 on a later chunk in their order, without the right
(log entry 65). -/
def provisionLaterChunk (i offset : Nat) (chunk : Bytes) (s : State) : Checked State := do
  check (chunkFits chunk) .badArgument
  let k ← findSlot i s
  checkKind [.blob] k
  checkActive k
  checkRoom offset chunk k
  pure (handSlot k.slotClass (.slotAppend (s.kept.slotPlace i) offset chunk) (.replyBlob i true) s)

def provisionBlob (i : Nat) (rest : Bytes) (s : State) : Checked State := do
  let (offset, rest) ← layout (takeNumber 2 rest)
  if offset = 0 then provisionFirstChunk i rest s else provisionLaterChunk i offset rest s

/-- ERASE: a slot that is not EMPTY becomes EMPTY; on an EMPTY slot nothing is written (R185). -/
def provisionErase (i : Nat) (rest : Bytes) (s : State) : Checked State := do
  layout (atEnd rest)
  let reply := [slotStateCode none]
  match s.kept.slot i with
  | some k => pure (handSlot k.slotClass (.slotErase (s.kept.slotPlace i)) (.reply reply) s)
  | none => pure (answer .ok reply s)

def serveProvisionSlot (_identity : Nat) (payload : Bytes) (s : State) : State :=
  served (do
    let (i, bytes) ← layout (takeNumber 1 payload)
    let (form, rest) ← layout (takeNumber 1 bytes)
    check (decide (i ≤ 3)) .badArgument
    match form with
    | 0 => provisionGenerate i rest s
    | 1 => provisionPublic i rest s
    | 2 => provisionBlob i rest s
    | 3 => provisionErase i rest s
    | _ => .error .badArgument) s

def execProvisionSlotGenerate (identity : Byte) (payload : Bytes) (s : State) : Host.Outcome State Fault Refusal :=
  event true (request .provisionSlot serveProvisionSlot identity payload) s

def execProvisionSlotPublic (identity : Byte) (payload : Bytes) (s : State) : Host.Outcome State Fault Refusal :=
  event true (request .provisionSlot serveProvisionSlot identity payload) s

def execProvisionSlotBlob (identity : Byte) (payload : Bytes) (s : State) : Host.Outcome State Fault Refusal :=
  event true (request .provisionSlot serveProvisionSlot identity payload) s

def execProvisionSlotErase (identity : Byte) (payload : Bytes) (s : State) : Host.Outcome State Fault Refusal :=
  event true (request .provisionSlot serveProvisionSlot identity payload) s

/-! ## PROVISION CREDENTIAL (R186) -/

/-- The write of a provisioned record, whose value is its factory copy (R186). -/
def writeProvisioned (f : CredForm) (value : Bytes) (s : State) : State :=
  served (do
    let _ ← s.kept.credIndex f.label false
    pure (s.handOver (.credPut (f.record (.factory value false) value s.ism)) (.replyIndex f.label))) s

def serveProvisionCredential (_identity : Nat) (payload : Bytes) (s : State) : State :=
  served (do
    let f ← layout (readCredForm payload)
    check f.wellFormed .badArgument
    let _ ← s.kept.credIndex f.label false
    pure (if f.kind = some .verifier then beginVerifier f.label f.value (.provisioning f) s
      else writeProvisioned f f.value s)) s

def execProvisionCredential (identity : Byte) (payload : Bytes) (s : State) : Host.Outcome State Fault Refusal :=
  event true (request .provisionCredential serveProvisionCredential identity payload) s

/-! ## PROVISION LAYOUT (R187) -/

/-- S and R as taken: rounded down to a multiple of 65,536, then clamped to 64 KiB..16 MiB and to 0..8 MiB (R187). -/
def takenLayout (size recovery : Nat) : Layout :=
  ⟨clamp 65536 16777216 (size / 65536 * 65536), min 8388608 (recovery / 65536 * 65536)⟩

/-- S and R (Formats). -/
def readLayout (payload : Bytes) : Option Layout := do
  let (size, bytes) ← takeNumber 4 payload
  let (recovery, bytes) ← takeNumber 4 bytes
  atEnd bytes
  pure (takenLayout size recovery)

def serveProvisionLayout (_identity : Nat) (payload : Bytes) (s : State) : State :=
  served (do
    let l ← layout (readLayout payload)
    pure (s.handOver (.layoutPut l) (.reply (le32 l.bankSize ++ le32 l.recoverySize)))) s

def execProvisionLayout (identity : Byte) (payload : Bytes) (s : State) : Host.Outcome State Fault Refusal :=
  event true (request .provisionLayout serveProvisionLayout identity payload) s

/-! ## PROVISION GOLDEN (R188) -/

/-- A region of 41 bytes, with flag bits that the coding names (Formats). -/
def readRegion (bytes : Bytes) : Option (Region × Bytes) := do
  let (start, bytes) ← takeNumber 4 bytes
  let (length, bytes) ← takeNumber 4 bytes
  let (flags, bytes) ← takeByte bytes
  let (digest, bytes) ← takeBytes 32 bytes
  if flags.toNat < 4 then pure (⟨start, length, digest, inSet flags 0, inSet flags 1⟩, bytes) else none

/-- Exactly `n` regions and nothing more. -/
def readRegions : Nat → Bytes → Option (List Region)
  | 0, bytes => (atEnd bytes).map fun _ => []
  | n + 1, bytes => do
    let (r, rest) ← readRegion bytes
    let more ← readRegions n rest
    pure (r :: more)

/-- Check 1: an epoch, a build, a count of 1..8 and that many regions (R188). -/
def readGolden (payload : Bytes) : Option (Nat × Nat × List Region) := do
  let (epoch, bytes) ← takeNumber 2 payload
  let (build, bytes) ← takeNumber 4 bytes
  let (count, bytes) ← takeNumber 1 bytes
  let regions ← if 1 ≤ count ∧ count ≤ 8 then readRegions count bytes else none
  pure (epoch, build, regions)

/-- The addresses of a region. -/
def Region.range (r : Region) : Nat × Nat := (r.start, r.start + r.length)

/-- Check 3: the regions lie in bank A, aligned, apart, and at least one is measured (R188). -/
def regionsFit (bankSize : Nat) (regions : List Region) : Bool :=
  (regions.all fun r => decide (r.start + r.length ≤ bankSize) && decide (r.start % 4096 = 0) &&
    decide (0 < r.length) && decide (r.length % 4096 = 0)) &&
    disjoint (regions.map (·.range)) && regions.any (·.measure)

/-- Checks 2 to 4 (R188). -/
def Records.checkGolden (r : Records) (epoch : Nat) (regions : List Region) : Checked Unit := do
  let l ← present r.layout .wrongState
  check (regionsFit l.bankSize regions) .badArgument
  check (decide (epoch ≤ 4095) && decide (r.counter 0 ≤ epoch)) .badArgument

def serveProvisionGolden (_identity : Nat) (payload : Bytes) (s : State) : State :=
  served (do
    let (epoch, build, regions) ← layout (readGolden payload)
    s.kept.checkGolden epoch regions
    pure (s.handOver (.goldenPut epoch build regions) (.reply (le16 epoch)))) s

def execProvisionGolden (identity : Byte) (payload : Bytes) (s : State) : Host.Outcome State Fault Refusal :=
  event true (request .provisionGolden serveProvisionGolden identity payload) s

/-! ## LOCK FACTORY (R189) -/

/-- Slot `i` is ACTIVE. -/
def Records.slotActive (r : Records) (i : Nat) : Bool :=
  match r.slot i with
  | some k => k.state == .active
  | none => false

/-- Slot 1 is the attestation pair: a SIGNING_PAIR whose usage includes STATEMENT, with answer set 0..7, no binding and no use limit
(R189). -/
def Records.attestationReady (r : Records) : Bool :=
  match r.slot 1 with
  | some k =>
    k.material.kind == .signingPair && inSet k.usage useStatement && k.answerSet == 0xFF && k.binding.isNone &&
      k.useLimit.isNone
  | none => false

/-- The preconditions of LOCK FACTORY (R189). -/
def Records.lockable (r : Records) : Bool :=
  r.layout.isSome && r.slotActive 0 && r.slotActive 1 && r.attestationReady && r.goldenA.valid

def serveLockFactory (_identity : Nat) (payload : Bytes) (s : State) : State :=
  served (do
    layout (readNothing payload)
    check s.kept.lockable .wrongState
    pure (s.handOver .lock (.reply []))) s

def execLockFactory (identity : Byte) (payload : Bytes) (s : State) : Host.Outcome State Fault Refusal :=
  event true (request .lockFactory serveLockFactory identity payload) s

end Sys2Proof.Machine
end

