-- ==== Sys2Proof/Machine/Statement.lean ====
section
/-! DEFINITION. Statements: MAKE STATEMENT and the statement body (chapter 6). -/

namespace Sys2Proof.Machine

/-- The booted set's epoch, FFFF when it is absent (R116). -/
def BootGate.bootedEpoch (g : BootGate) : Nat :=
  match g.booted with
  | some b => b.epoch
  | none => 0xFFFF

/-- The booted set's build, 0 when it is absent (R116). -/
def BootGate.bootedBuild (g : BootGate) : Nat :=
  match g.booted with
  | some b => b.build
  | none => 0

/-- Fields 1 to 13 of the body (R116, Formats). -/
def State.statementHead (s : State) : Bytes :=
  [1] ++ padTo 16 (s.kept.serial.take 16) ++ le32 s.kept.vault.ownerTag.toNat ++
    [yesNo s.kept.vault.claimed, s.marker, byteOf s.ism.stage.number, s.gate.state.code, bankCode s.gate.selected,
      yesNo s.gate.trialBooted] ++
    (List.range 4).flatMap (fun line => le16 (s.kept.counter line)) ++
    le16 s.gate.bootedEpoch ++ le32 s.gate.bootedBuild ++ [byteOf s.ism.log.length]

/-- The statement body (R116): every value is taken in the one event of its assembly (R115). -/
def State.statementBody (s : State) (chains : Byte) (nonce : Bytes) : Bytes :=
  s.statementHead ++ [chains] ++ s.ism.chainValues chains ++ [byteOf nonce.length] ++ nonce

/-- A slot, a chain set, a nonce length, and the rest (Formats). -/
def readStatement (payload : Bytes) : Option (Nat × Byte × Nat × Bytes) := do
  let (i, bytes) ← takeNumber 1 payload
  let (chains, bytes) ← takeByte bytes
  let (length, nonce) ← takeNumber 1 bytes
  pure (i, chains, length, nonce)

def serveMakeStatement (identity : Nat) (payload : Bytes) (s : State) : State :=
  served (do
    let (i, chains, length, nonce) ← layout (readStatement payload)
    let _ ← checkUse i identity .signingPair useStatement s
    check (decide (8 ≤ length) && decide (length ≤ 32)) .badArgument
    check (nonce.length == length) .badArgument
    let body := s.statementBody chains nonce
    pure (beginDigest none body (.statementDigest (s.kept.slotPlace i) body) s)) s

def execMakeStatement (identity : Byte) (payload : Bytes) (s : State) : Host.Outcome State Fault Refusal :=
  event true (request .makeStatement serveMakeStatement identity payload) s

end Sys2Proof.Machine
end

