-- ==== Sys2Proof/Machine/Engines.lean ====
section
/-! DEFINITION. The events of the Digest Engine, the Flash Reader and the Signature Engine (R23, R45, R51), with what goes on in the request
whose work they do. -/

namespace Sys2Proof.Machine

/-- The LINK context is FINISHED: the request takes the result and goes on (R14, R16, R38, R118, R132, R135, R140, R186). -/
def linkDigestDone (result : Bytes) (s : State) : State :=
  match s.link.service with
  | .signDigest p => placeSign p result (.signEngine p) s
  | .deriveDigest p => countUse p result true s
  | .extendDigest chain tag => extendDataDone chain tag result s
  | .statementDigest p body => placeSign p result (.statementEngine p body) s
  | .comparing p before newValue => compared p before newValue result s
  | .changing p old => writeChanged p old result s
  | .enrolling f => writeEnrolled f result s
  | .provisioning f => writeProvisioned f result s
  | .none | .vaultWait | .signEngine _ | .statementEngine _ _ | .generating _ _ _ => s

/-- The owner of a context that has become FINISHED takes its result (R44, R52). -/
def contextDone (which : CtxId) (s : State) : State :=
  match which with
  | .reader => endJobIfDone s
  | .link => linkDigestDone s.digest.link.result s

/-- The block being absorbed has been absorbed: the mark names its context, a context may become FINISHED, and the engine takes its next
block (R45). -/
def blockAbsorbed (a : Absorption) (s : State) : State :=
  let t := { s with digest := s.digest.absorbed a }
  let t := if !a.discard && (t.digest.context a.context).state == .finished then contextDone a.context t else t
  { t with digest := t.digest.takeBlock }

def absorbNow (s : State) : State :=
  match s.digest.absorbing with
  | some a => blockAbsorbed a s
  | none => s

def execDeBlockAbsorbed (s : State) : Host.Outcome State Fault Refusal :=
  event s.digest.absorbing.isSome absorbNow s

def execFrBurstStart (s : State) : Host.Outcome State Fault Refusal := event s.burstGranted startBurst s

def execFrBurstComplete (bytes : Bytes) (s : State) : Host.Outcome State Fault Refusal :=
  event (s.burstFits bytes) (burstRead bytes) s

/-- A completed SIGN operation's signature goes to its request: the use is counted, and the reply follows the count write (R15, R119). -/
def signatureDone (signature : Bytes) (s : State) : State :=
  match s.link.service with
  | .signEngine p => countUse p signature true s
  | .statementEngine p body => countUse p (body ++ signature) false s
  | _ => s

/-- The operation being performed completes and leaves the list; its result goes to its origin (R23). A signature is drawn anew each time
(log entry 3). -/
def engineDone (s : State) : State :=
  match s.engine with
  | .sign _ key digest :: rest =>
    signatureDone (Config.signature s.draws key digest) { s with engine := rest, draws := s.draws + 1 }
  | .verify _ key digest signature :: rest =>
    verdictDone (Config.signatureValid key digest signature) { s with engine := rest }
  | [] => s

def execSeOperationComplete (s : State) : Host.Outcome State Fault Refusal :=
  event (!s.engine.isEmpty) engineDone s

end Sys2Proof.Machine
end

