-- ==== Sys2Proof/Machine/Records.lean ====
section
/-! DEFINITION. What each write and update puts into the persistent records at its completion (R182). -/

namespace Sys2Proof.Machine

/-! ## Key slots -/

def Records.withSlot (r : Records) (i : Nat) (slot : Option KeySlot) : Records :=
  { r with slots := r.slots.setIfInBounds i slot }

/-- A slot that is not EMPTY, and has not been since its place was taken, is changed. -/
def Records.updateSlot (r : Records) (p : Place) (f : KeySlot → KeySlot) : Records :=
  match r.slotAt p with
  | some k => r.withSlot p.index (some (f k))
  | none => r

/-- A slot that is not EMPTY becomes EMPTY, and its life ends (R22, R185, log entry 53). -/
def Records.emptySlot (r : Records) (p : Place) : Records :=
  match r.slotAt p with
  | some _ => { r.withSlot p.index none with slotLives := r.slotLives.setIfInBounds p.index (p.life + 1) }
  | none => r

/-- Retirement discards a private key or a secret and keeps the rest (R5). -/
def KeyMaterial.retired : KeyMaterial → KeyMaterial
  | .pair _ publicKey => .pair none publicKey
  | .secret _ => .secret none
  | .verifyPublic publicKey => .verifyPublic publicKey
  | .blob data => .blob data

def KeySlot.retired (k : KeySlot) : KeySlot := { k with state := .retired, material := k.material.retired }

/-- A counted use: the count rises by one, saturating without a limit; at the limit the slot is retired (R6). -/
def KeySlot.counted (k : KeySlot) : KeySlot :=
  match k.useLimit with
  | none => { k with useCount := saturating 65535 k.useCount }
  | some limit =>
    let k := { k with useCount := k.useCount + 1 }
    if k.useCount = limit then k.retired else k

/-- A narrowed policy: an absent limit or binding is kept, and a limit at or below the use count retires the slot (R21). -/
def KeySlot.restricted (usage answerSet : Byte) (limit : Option Nat) (binding : Option Binding) (k : KeySlot) : KeySlot :=
  let k := { k with
    usage := usage, answerSet := answerSet, useLimit := limit.or k.useLimit, binding := binding.or k.binding }
  match k.useLimit with
  | some l => if l ≤ k.useCount then k.retired else k
  | none => k

/-- A chunk is appended to a blob (R20). -/
def KeySlot.appended (chunk : Bytes) (k : KeySlot) : KeySlot :=
  match k.material with
  | .blob data => { k with material := .blob (data ++ chunk) }
  | _ => k

/-! ## Images -/

def Records.withGolden (r : Records) (bank : Bank) (set : GoldenSet) : Records :=
  match bank with
  | .a => { r with goldenA := set }
  | .b => { r with goldenB := set }

def Records.withCounter (r : Records) (line epoch : Nat) : Records :=
  { r with counters := r.counters.setIfInBounds line epoch }

/-- The confirming update of line 0 (R112). -/
def Records.confirmBoot (r : Records) : Records :=
  match r.staged with
  | .trial f (some regions) =>
    let active := r.selector.active
    let r := r.withGolden active.other ⟨true, f.epoch, f.build, regions⟩
    let r := r.withGolden active { r.golden active with valid := false }
    { r.withCounter 0 f.epoch with selector := ⟨active.other, 0⟩, staged := .none }
  | _ => r

/-- The confirming update of lines 1..3 (R113). -/
def Records.confirmLine (r : Records) (line : Nat) : Records :=
  match r.staged with
  | .verified f _ => { r.withCounter line f.epoch with staged := .none }
  | _ => r

/-- VERIFIED becomes ARMED with tries (R110). -/
def Records.arm (r : Records) (tries : Nat) : Records :=
  match r.staged with
  | .verified f c => { r with staged := .armed f c, selector := { r.selector with tries := tries } }
  | _ => r

/-- ARMED becomes VERIFIED and tries 0 (R109). -/
def Records.disarm (r : Records) : Records :=
  match r.staged with
  | .armed f c => { r with staged := .verified f c, selector := { r.selector with tries := 0 } }
  | _ => r

/-- ARMED or TRIAL becomes TRIAL and tries is lowered by one (R111). -/
def Records.trialTry (r : Records) : Records :=
  match r.staged with
  | .armed f c | .trial f c =>
    { r with staged := .trial f c, selector := { r.selector with tries := r.selector.tries - 1 } }
  | _ => r

/-! ## The vault -/

def Records.withCred (r : Records) (i : Nat) (c : Option Credential) : Records :=
  { r with creds := r.creds.setIfInBounds i c }

/-- A credential that is present, and has been since its place was taken, is changed. -/
def Records.updateCred (r : Records) (p : Place) (f : Credential → Credential) : Records :=
  match r.credAt p with
  | some c => r.withCred p.index (some (f c))
  | none => r

/-- A credential that is present becomes not present, and its life ends (R142, log entry 53). -/
def Records.removeCred (r : Records) (p : Place) : Records :=
  match r.credAt p with
  | some _ => { r.withCred p.index none with credLives := r.credLives.setIfInBounds p.index (p.life + 1) }
  | none => r

/-- The life of a place ends where what stood there stands there no more (log entry 53). -/
def lifeAfter {α : Type} (before after : Option α) (life : Nat) : Nat :=
  if before.isSome && after.isNone then life + 1 else life

/-- A new value; for a FACTORY record, changed says whether it differs from the factory copy (R140, R141). -/
def Credential.valued (value : Bytes) (clear : Bool) (c : Credential) : Credential :=
  { c with
    value := value
    failures := if clear then 0 else c.failures
    credClass := match c.credClass with
      | .factory copy _ => .factory copy (value != copy)
      | .owner => .owner }

/-- What an owner reset leaves of a credential: nothing of an OWNER record, and a FACTORY record with its factory copy (R144). -/
def Credential.ownerReset (c : Credential) : Option Credential :=
  match c.credClass with
  | .owner => none
  | .factory copy _ => some { c with value := copy, failures := 0, credClass := .factory copy false }

/-- What an owner reset leaves of a slot: nothing of an OWNER slot (R144). -/
def KeySlot.ownerReset (k : KeySlot) : Option KeySlot := if k.slotClass = .owner then none else some k

/-- The owner reset (R144). -/
def Records.ownerReset (r : Records) : Records :=
  { r with
    slots := r.slots.mapIdx fun _ slot => slot.bind KeySlot.ownerReset
    slotLives := r.slotLives.mapIdx fun i life => lifeAfter (r.slot i) ((r.slot i).bind KeySlot.ownerReset) life
    creds := r.creds.mapIdx fun _ c => c.bind Credential.ownerReset
    credLives := r.credLives.mapIdx fun i life => lifeAfter (r.cred i) ((r.cred i).bind Credential.ownerReset) life
    vault := factoryVault }

/-- A vault parameter is set (R138). -/
def VaultRecord.withParam (v : VaultRecord) (value : Nat) : VaultParam → VaultRecord
  | .free => { v with free := value }
  | .base => { v with base := value }
  | .cap => { v with cap := value }
  | .forgive => { v with forgive := value }

/-- A Boot Gate parameter is set (R84). -/
def BootParams.withParam (p : BootParams) (value : Nat) : BootParam → BootParams
  | .attachLimit => { p with attachLimit := value }
  | .completeLimit => { p with completeLimit := value }
  | .silenceLimit => { p with silenceLimit := value }
  | .bootPolicy => { p with bootPolicy := if value = 0 then .strict else .audit }
  | .scanPeriod => { p with scanPeriod := value }

/-! ## Every write and update -/

/-- What a write or update needs of the records as they stand when it is made: the checks of its own rule, tested again, with that rule's
replies (R27, R128, R131, R132, R186, R188, R189; for a slot `recheckSlot`). They can fail only where a begun write of a dropped request has
changed the records since the request was checked; the model's choice is not to make such a write (log entry 46). -/
def Records.recheck (r : Records) (op : StoreOp) : Checked Unit :=
  match op with
  | .requesterPut i record => r.checkRequester i record
  | .vaultClaim _ => check (!r.vault.claimed) .wrongState
  | .credPut record => do
    let _ ← r.credIndex record.label record.isOwner
    check (r.mayHold record.isOwner) .wrongState
  | .credCharge p _ | .credMatch p | .credValue p _ _ _ | .credRemove p | .credDecay p _ =>
    check (r.credAt p).isSome .badArgument
  | .goldenPut epoch _ regions => r.checkGolden epoch regions
  | .lock => check r.lockable .wrongState
  | _ => r.recheckSlot op

/-- What a write or update that is made puts into the records. -/
def Records.written (r : Records) : StoreOp → Records
  | .slotPut i record => r.withSlot i (some record)
  | .slotAppend p _ chunk => r.updateSlot p (KeySlot.appended chunk)
  | .slotCount p => r.updateSlot p KeySlot.counted
  | .slotRestrict p usage answerSet limit binding => r.updateSlot p (KeySlot.restricted usage answerSet limit binding)
  | .slotRetire p => r.updateSlot p KeySlot.retired
  | .slotErase p => r.emptySlot p
  | .requesterPut i record => { r with requesters := r.requesters.setIfInBounds i record }
  | .recoveryNext value => { r with recoveryNext := value }
  | .bootParam p value => { r with params := r.params.withParam value p }
  | .stagedPut record => { r with staged := record }
  | .arm tries => r.arm tries
  | .disarm => r.disarm
  | .trialTry => r.trialTry
  | .confirmBoot => r.confirmBoot
  | .confirmLine line => r.confirmLine line
  | .vaultClaim tag => { r with vault := { r.vault with claimed := true, ownerTag := tag } }
  | .vaultParam p value => { r with vault := r.vault.withParam value p }
  | .credPut record =>
    match r.credIndex record.label record.isOwner with
    | .ok i => r.withCred i (some record)
    | .error _ => r
  | .credCharge p _ => r.updateCred p fun c => { c with failures := saturating 15 c.failures }
  | .credMatch p => r.updateCred p fun c => { c with failures := 0 }
  | .credValue p value clear _ => r.updateCred p (Credential.valued value clear)
  | .credRemove p => r.removeCred p
  | .credDecay p _ => r.updateCred p fun c => { c with failures := c.failures - 1 }
  | .ownerReset => r.ownerReset
  | .patternPut n p => { r with patterns := r.patterns.setIfInBounds (n - 1) p }
  | .reactionPut i e => { r with reactions := r.reactions.setIfInBounds i e }
  | .layoutPut l =>
    { r with
      layout := some l
      goldenA := { r.goldenA with valid := false }
      goldenB := { r.goldenB with valid := false } }
  | .goldenPut epoch build regions =>
    { r.withCounter 0 epoch with goldenA := ⟨true, epoch, build, regions⟩ }
  | .lock => { r with lifecycle := .field }

/-- The records after a write or update has completed: every record it names takes its new content together (R182), where what the write
needs of them still holds. -/
def Records.apply (r : Records) (op : StoreOp) : Records :=
  match r.recheck op with
  | .ok _ => r.written op
  | .error _ => r

end Sys2Proof.Machine
end

