-- ==== Sys2Proof/Machine/Store.lean ====
section
/-! DEFINITION. The store: the start, the completion and the failure of a write or update, and what its writer then does (R182, R183). -/

namespace Sys2Proof.Machine

/-! ## Volatile effects of a completion -/

/-- Only an ACTIVE slot carries a suspension mark (R7). -/
def pruneMarks (s : State) : State :=
  { s with keys := { s.keys with suspended := s.keys.suspended.mapIdx fun i mark => mark && s.kept.slotActive i } }

/-- A slot is not suspended (R17). -/
def clearMark (i : Nat) (s : State) : State :=
  { s with keys := { s.keys with suspended := s.keys.suspended.setIfInBounds i false } }

/-- The decay clock of a record moves forward by the interval of its step (R136). -/
def moveClock (i interval : Nat) (s : State) : State :=
  { s with vault := s.vault.withClock i (s.vault.clockOf i + interval) }

/-- The penalty deadline of a record becomes absent (R135). -/
def clearPenalty (i : Nat) (s : State) : State := { s with vault := s.vault.withPenalty i none }

/-- The decay clock of a record is set to the present uptime second (R132, R140, R186). These rules do not say whether that is the second in which
the record's write is handed over or the one in which it completes; this is run at its completion: the model's choice (log entry 58). -/
def setClock (i : Nat) (s : State) : State := { s with vault := s.vault.withClock i s.second }

/-- For every credential restored or removed by an owner reset the penalty deadline becomes absent and the decay clock is set to the
present uptime second (R144). -/
def clearReset (old : Records) (s : State) : State :=
  { s with vault := { s.vault with
      penalty := s.vault.penalty.mapIdx fun i p => if (old.cred i).isSome then none else p
      decay := s.vault.decay.mapIdx fun i second => if (old.cred i).isSome then s.second else second } }

/-- An entry just written has its mark clear and its count 0 (R162, R165). -/
def clearEntry (i : Nat) (s : State) : State :=
  { s with reactions :=
    { fired := s.reactions.fired.setIfInBounds i false, counts := s.reactions.counts.setIfInBounds i 0 } }

/-- A new pattern 3 is given to the presence source while the window is open (R155, R166). -/
def patternWritten (number : Nat) (s : State) : State :=
  if number = 3 ∧ s.present then
    { s with biu := { s.biu with presence := s.biu.presence.give s.uptime s.kept.presencePattern } }
  else s

/-- SCAN_PERIOD has been written: a stopped timer starts in RUNNING with a booted set present (R86). -/
def paramWritten (p : BootParam) (s : State) : State :=
  if p = .scanPeriod ∧ s.gate.scanTimer.isNone ∧ s.gate.state = .running then
    { s with gate := { s.gate with scanTimer := s.startScanTimer } }
  else s

/-- The verification record is closed (R98, R103). -/
def closeVerification (s : State) : State := { s with image := { s.image with verification := none } }

/-- The staged record has been written: a rejection raises IMAGE_DONE, and VERIFIED closes the verification and raises it
(R96, R103, R105). -/
def stagedWritten (record : Staged) (s : State) : State :=
  match record with
  | .rejected _ _ _ => s.raise .imageDone
  | .verified _ _ => (closeVerification s).raise .imageDone
  | _ => s

/-- What a completion changes beside the records; `old` are the records before it. The decay clock of a charged record becomes the second of
its charge (R134); that of a new record, and of one changed without the old passphrase, the second of this completion, where R132, R140
and R186 leave open which second is meant: the model's choice (log entry 58). -/
def completionEffects (old : Records) (op : StoreOp) (s : State) : State :=
  match op with
  | .slotPut i _ => clearMark i s
  | .slotCount _ | .slotRestrict _ _ _ _ _ | .slotRetire _ | .slotErase _ => pruneMarks s
  | .credCharge p second => { s with vault := s.vault.withClock p.index second }
  | .credMatch p | .credRemove p => clearPenalty p.index s
  | .credPut record =>
    match old.credIndex record.label record.isOwner with
    | .ok i => setClock i (clearPenalty i s)
    | .error _ => s
  | .credValue p _ clear restart =>
    let s := if clear then clearPenalty p.index s else s
    if restart then setClock p.index s else s
  | .credDecay p interval => moveClock p.index interval s
  | .ownerReset => State.raise .ownerReset (clearReset old (pruneMarks s))
  | .patternPut number _ => patternWritten number s
  | .reactionPut i _ => clearEntry i s
  | .bootParam p _ => paramWritten p s
  | .stagedPut record => stagedWritten record s
  | _ => s

/-- Where a credential record is still present, its volatile fields are changed (R126, log entry 53). -/
def whilePresent (p : Place) (effect : State → State) (s : State) : State :=
  if (s.kept.credAt p).isSome then effect s else s

/-- What a failure changes beside STORE_FAULT: a match clears the penalty deadline all the same, a decay step moves its clock, and a
completed verification is closed (R135, R136, R103). -/
def failureEffects (op : StoreOp) (s : State) : State :=
  match op with
  | .credMatch p => whilePresent p (clearPenalty p.index) s
  | .credDecay p interval => whilePresent p (moveClock p.index interval) s
  | .stagedPut (.verified _ _) => closeVerification s
  | _ => s

/-! ## The vault's next work (R145) -/

/-- A vault request that has waited is served (R145). -/
def serveVault (r : Request) (s : State) : State :=
  match r.code with
  | .vaultStatus => serveVaultStatus r.identity r.payload s
  | .vaultClaim => serveVaultClaim r.identity r.payload s
  | .credEnroll => serveCredEnroll r.identity r.payload s
  | .credCheck => serveCredCheck r.identity r.payload s
  | .credRetrieve => serveCredRetrieve r.identity r.payload s
  | .credChange => serveCredChange r.identity r.payload s
  | .credRemove => serveCredRemove r.identity r.payload s
  | .ownerReset => serveOwnerReset r.identity r.payload s
  | .provisionCredential => serveProvisionCredential r.identity r.payload s
  | .setParameter => serveSetParameter r.identity r.payload s
  | .readParameter => serveReadParameter r.identity r.payload s
  | _ => s

/-- The vault is free: a request that is next in turn is served; an owner reset that is next is taken by its own event (R145, log entry
18). A request that waits is served in this same event, before a decay step of another record that waits as well: R136 has the step, and R145
the request, wait until the vault is free, and neither says which goes first: the model's choice (log entry 60). -/
def vaultFreed (s : State) : State :=
  let s := { s with vault := { s.vault with holder := none } }
  match s.vault.waiting, s.link.request with
  | .request :: rest, some r =>
    serveVault r { s with
      vault := { s.vault with holder := some .request, waiting := rest }
      link := { s.link with service := .none } }
  | _, _ => s

/-- A decay step has ended: the next one that is due already is taken, one after another (R136). -/
def decayEnded (i : Nat) (s : State) : State :=
  if s.decayDue i then beginDecay i s else vaultFreed s

/-- The slot that a write changes. -/
def StoreOp.slot : StoreOp → Option Place
  | .slotAppend p _ _ | .slotCount p | .slotRestrict p _ _ _ _ | .slotRetire p | .slotErase p => some p
  | _ => none

/-- The write held back during an owner reset's update is checked again against the records as they stand (R144). -/
def releaseHeld (s : State) : State :=
  let t := { s with keys := { s.keys with held := none } }
  match s.keys.held with
  | none => s
  | some ⟨.slotPut i record, after⟩ => createSlot i record after t
  | some ⟨op, after⟩ =>
    match op.slot with
    | some p => writeSlot p op after t
    | none => t

/-! ## What the writer does -/

/-- The payload of a counted use's reply: its result and, where the request reports them, the use count and the slot's state (R15, R16,
R119). A use is counted on a slot that is not EMPTY (`recheckSlot`). -/
def countedPayload (i : Nat) (result : Bytes) (report : Bool) (r : Records) : Bytes :=
  match r.slot i with
  | some k => if report then result ++ le16 k.useCount ++ [slotStateCode (some k.state)] else result
  | none => result

/-- The payload that follows the write of a chunk: the new length, or for PROVISION SLOT the slot's state (R20, R185). -/
def blobPayload (i : Nat) (provision : Bool) (r : Records) : Bytes :=
  if provision then [r.slotState i]
  else match r.slot i with
    | some k => le16 k.material.blobLength
    | none => le16 0

/-- The payload that follows the write of a new credential record: the index of its label (R132, R186). -/
def indexPayload (label : Bytes) (r : Records) : Bytes :=
  match r.findCred label with
  | some (i, _) => [byteOf i]
  | none => []

/-- The writer goes on after a completion. The count write of a KEY IMPORT finds the unwrapping slot as it then stands: EMPTY or RETIRED it is
refused, and the new slot stands, on which R19 is silent: the model's choice (log entry 52). -/
def goOn (after : After) (s : State) : State :=
  match after with
  | .silent => s
  | .reply payload => answer .ok payload s
  | .replyKeyInfo i => answer .ok (s.slotInfo i) s
  | .replyBlob i provision => answer .ok (blobPayload i provision s.kept) s
  | .replyCounted i result report => answer .ok (countedPayload i result report s.kept) s
  | .replyIndex label => answer .ok (indexPayload label s.kept) s
  | .replyConfirm line => answer .ok (s.kept.confirmation line) s
  | .countUnwrap p payload => writeSlot p (.slotCount p) (.reply payload) s
  | .compare p before candidate newValue => beginCompare p before candidate newValue s
  | .reactionWrite hold => if hold then holdSoc s else s
  | .accept requester => acceptVerification requester s
  | .trialSelected => selectTrial s
  | .decayed i => decayEnded i s
  | .resetDone request => vaultFreed (releaseHeld (if request then answer .ok [] s else s))

/-- The writer goes on after a write that has not been made: its request is answered with a status, STORE_FAULT where the write failed
(R183). -/
def goOnFailed (status : Status) (after : After) (s : State) : State :=
  match after with
  | .silent => s
  | .reactionWrite hold => if hold then holdSoc s else s
  | .trialSelected => selectActive s
  | .decayed i => decayEnded i s
  | .resetDone request => vaultFreed (releaseHeld (if request then refuse status s else s))
  | .reply _ | .replyKeyInfo _ | .replyBlob _ _ | .replyCounted _ _ _ | .replyIndex _ | .replyConfirm _ | .countUnwrap _ _
  | .compare _ _ _ _ | .accept _ => refuse status s

/-! ## The events -/

/-- The store takes the next item of its list (R183). -/
def StoreUnit.take (u : StoreUnit) : StoreUnit :=
  match u.making, u.waiting with
  | none, item :: rest => ⟨some item, rest⟩
  | _, _ => u

def startWrite (s : State) : State := { s with store := s.store.take }

def execStoreWriteStart (s : State) : Host.Outcome State Fault Refusal :=
  event (s.store.making.isNone && !s.store.waiting.isEmpty) startWrite s

/-- An item is made (R182): the records take their new content, and its writer goes on. -/
def made (item : StoreItem) (s : State) : State :=
  goOn item.after (completionEffects s.kept item.op { s with kept := s.kept.apply item.op })

/-- An item completes (R182). Where what it needs of the records no longer holds it is not made, and its request is answered with the reply
of the check that fails (log entry 46). A start of measurement that waits for the item goes on as well (R68). -/
def complete (item : StoreItem) (s : State) : State :=
  let t := { s with store := { s.store with making := none } }
  interruptStep (match s.kept.recheck item.op with
    | .ok _ => made item t
    | .error status => goOnFailed status item.after t)

/-- An item fails (R183): the records keep their old content, STORE_FAULT is raised, and its writer goes on. -/
def failItem (item : StoreItem) (s : State) : State :=
  let t := State.raise .storeFault { s with store := { s.store with making := none } }
  interruptStep (goOnFailed .storeFault item.after (failureEffects item.op t))

def completeNow (s : State) : State :=
  match s.store.making with
  | some item => complete item s
  | none => s

def failNow (s : State) : State :=
  match s.store.making with
  | some item => failItem item s
  | none => s

def execStoreWriteComplete (s : State) : Host.Outcome State Fault Refusal :=
  event s.store.making.isSome completeNow s

def execStoreWriteFailed (s : State) : Host.Outcome State Fault Refusal :=
  event s.store.making.isSome failNow s

end Sys2Proof.Machine
end

