-- ==== Sys2Proof/Machine/Power.lean ====
section
/-! DEFINITION. Power-on and power loss (R190, R137, R182). -/

namespace Sys2Proof.Machine

/-- What a write that power loss cuts short has left: every record it names holds its new content, or every one its old (R182). A write
that was only waiting is lost. -/
def State.keptAfterLoss (landed : Bool) (s : State) : Records :=
  match landed, s.store.making with
  | true, some item => s.kept.apply item.op
  | _, _ => s.kept

/-- The penalty deadline that power-on imposes on record `i`, from uptime second 0 (R137). -/
def Records.penaltyAtPowerOn (r : Records) (i : Nat) : Option Nat :=
  match r.cred i with
  | some c => penaltyFrom r.vault 0 c.failures
  | none => none

/-- The penalties are imposed again, which writes nothing, raises no flag and is no condition event (R137, R192). -/
def imposePenalties (s : State) : State :=
  { s with vault := { s.vault with penalty := s.vault.penalty.mapIdx fun i _ => s.kept.penaltyAtPowerOn i } }

/-- Power-on from stored records: every volatile field takes its power-on value, the penalties are imposed again, and the first start of
measurement follows (R190). -/
def powerOnFrom (kept : Records) (pressed : Bool) (draws : Nat) (pending : List Instr) : State :=
  (startOfMeasurement false (imposePenalties (State.volatileReset kept pressed draws pending))).settle

/-- Power-on, from power loss or from a brown-out, which is treated as power loss (R190, log entry 24). -/
def execPowerOn (landed : Bool) (s : State) : Host.Outcome State Fault Refusal :=
  .next (powerOnFrom (s.keptAfterLoss landed) s.biu.pressed s.draws s.pending)

/-- A part without power: its records stay, nothing volatile does, and it drives no pin (R182, R190, log entry 24). -/
def unpowered (kept : Records) (s : State) : State :=
  { State.volatileReset kept s.biu.pressed s.draws s.pending with powered := false, pins := ⟨false, false, false, [], []⟩ }

def execPowerLoss (landed : Bool) (s : State) : Host.Outcome State Fault Refusal :=
  .next (if s.powered then unpowered (s.keptAfterLoss landed) s else s)

end Sys2Proof.Machine
end

