-- ==== Sys2Proof/Machine/Reactions.lean ====
section
/-! DEFINITION. The requests of the Reaction Table and of the policy patterns (R159, R164 to R166). -/

namespace Sys2Proof.Machine

/-- The threshold byte of an entry: 4..15 for PENALTY_LEVEL, 00 otherwise (R159, R165). -/
def readThreshold (condition : Condition) (b : Byte) : Option (Option Nat) :=
  if condition = .penaltyLevel then
    if 4 ≤ b.toNat ∧ b.toNat ≤ 15 then some (some b.toNat) else none
  else if b = 0 then some none else none

/-- The action of an entry with its argument bytes: a pattern number 1..4 for SHOW_PATTERN, a non-empty identity set for SUSPEND_SLOTS, and
00 where the argument is absent (R159, R165). -/
def readAction (code pattern set : Byte) : Option Action :=
  match code.toNat with
  | 0 => if pattern = 0 ∧ set = 0 then some .alertOnly else none
  | 1 => if 1 ≤ pattern.toNat ∧ pattern.toNat ≤ 4 ∧ set = 0 then some (.showPattern pattern.toNat) else none
  | 2 => if pattern = 0 ∧ set ≠ 0 then some (.suspendSlots set) else none
  | 3 => if pattern = 0 ∧ set = 0 then some .holdSoc else none
  | 4 => if pattern = 0 ∧ set = 0 then some .recoveryNext else none
  | 5 => if pattern = 0 ∧ set = 0 then some .ownerReset else none
  | _ => none

/-- An entry of REACTION WRITE: its index and a well-formed entry (R159, R165). -/
def readReaction (payload : Bytes) : Option (Nat × ReactionEntry) :=
  match payload with
  | [index, enabled, condition, action, threshold, pattern, set, once] => do
    let enabled ← readYesNo enabled
    let once ← readYesNo once
    let condition ← Condition.ofCode condition.toNat
    let action ← readAction action pattern set
    let threshold ← readThreshold condition threshold
    if index.toNat ≤ 7 ∧ (action = .ownerReset → condition = .buttonHold) then
      pure (index.toNat, ⟨enabled, condition, threshold, action, once⟩)
    else none
  | _ => none

/-- The pattern byte of an action (R165). -/
def Action.patternByte (a : Action) : Byte := byteOf (a.patternNumber.getD 0)

/-- Entry `i` as the link carries it (R165). -/
def ReactionEntry.bytes (i : Nat) (e : ReactionEntry) : Bytes :=
  [byteOf i, yesNo e.enabled, e.condition.code, e.action.code, byteOf (e.threshold.getD 0), e.action.patternByte,
    e.action.identitySet, yesNo e.once]

/-- Entry `i` with its mark and count (R164, Formats). -/
def State.reactionBytes (s : State) (i : Nat) : Bytes :=
  match s.kept.reactions[i]?, s.reactions.fired[i]?, s.reactions.counts[i]? with
  | some e, some mark, some n => e.bytes i ++ [yesNo mark, byteOf n]
  | _, _, _ => []

def serveReactionRead (_identity : Nat) (payload : Bytes) (s : State) : State :=
  answered (do
    layout (readNothing payload)
    pure ((List.range 8).flatMap s.reactionBytes)) s

def execReactionRead (identity : Byte) (payload : Bytes) (s : State) : Host.Outcome State Fault Refusal :=
  event true (request .reactionRead serveReactionRead identity payload) s

def serveReactionWrite (_identity : Nat) (payload : Bytes) (s : State) : State :=
  served (do
    let (i, e) ← layout (readReaction payload)
    pure (s.handOver (.reactionPut i e) (.reply payload))) s

def execReactionWrite (identity : Byte) (payload : Bytes) (s : State) : Host.Outcome State Fault Refusal :=
  event true (request .reactionWrite serveReactionWrite identity payload) s

/-- A pattern number 1..4 and a pattern (R166). -/
def readPatternWrite (payload : Bytes) : Option (Nat × Pattern) := do
  let (number, rest) ← takeNumber 1 payload
  let p ← readPattern rest
  if 1 ≤ number ∧ number ≤ 4 then pure (number, p) else none

def servePatternWrite (_identity : Nat) (payload : Bytes) (s : State) : State :=
  served (do
    let (number, p) ← layout (readPatternWrite payload)
    pure (s.handOver (.patternPut number p.taken) (.reply (byteOf number :: p.taken.bytes)))) s

def execPatternWrite (identity : Byte) (payload : Bytes) (s : State) : Host.Outcome State Fault Refusal :=
  event true (request .patternWrite servePatternWrite identity payload) s

end Sys2Proof.Machine
end

