-- ==== Sys2Proof/Machine/SocFlash.lean ====
section
/-! DEFINITION. The SoC's flash transactions (R55 to R62). -/

namespace Sys2Proof.Machine

/-- A dropped PROGRAM or ERASE: the port answers it itself, the violation counter rises, the flag is raised, and the drop is a condition
event (R62). -/
def dropViolation (command : FlashCommand) (s : State) : State :=
  fire .protectViolation 0 (State.raise .protectViolation
    { s with port := { s.port with
        soc := some ⟨command, .dropped⟩, violations := saturating 65535 s.port.violations } })

/-- A transaction is granted the flash and forwarded (R56). -/
def FlashPort.forward (p : FlashPort) : FlashPort :=
  match p.side, p.soc with
  | .idle, some ⟨command, .waiting accesses⟩ => { p with side := .soc, soc := some ⟨command, .forwarded accesses⟩ }
  | _, _ => p

/-- A SoC transaction's command and address are received: it is dropped, answered by the port, or forwarded as soon as the flash is
free (R55, R56, R59, R61). -/
def socCommand (command : FlashCommand) (s : State) : State :=
  if s.protectedTouch command then dropViolation command s
  else if onlyFill (s.accesses command) then
    { s with port := { s.port with soc := some ⟨command, .answered (s.accesses command)⟩ } }
  else { s with port := FlashPort.forward { s.port with soc := some ⟨command, .waiting (s.accesses command)⟩ } }

/-- The target side takes a transaction while the SoC is not held and none is open (R56, R57). -/
def State.takesSoc (s : State) : Bool := !s.held && s.port.soc.isNone

def execSocFlashCommand (command : FlashCommand) (s : State) : Host.Outcome State Fault Refusal :=
  event s.takesSoc (socCommand command) s

def forwardSoc (s : State) : State := { s with port := s.port.forward }

def execSocFlashForward (s : State) : Host.Outcome State Fault Refusal :=
  event (!s.held && s.port.side == .idle && s.port.socWaiting) forwardSoc s

/-- The flash busy mark after a forwarded transaction: set by a PROGRAM or ERASE, cleared by a status read that reports ready (R58). -/
def busyAfter (command : FlashCommand) (ready busy : Bool) : Bool :=
  if commandWrites command then true else if command = .status ∧ ready then false else busy

/-- FT_CS rises and ends the transaction (R55, R57, R58). A complete transaction that still waits behind a burst when FT_CS rises is
discarded and never forwarded: R55 has it wait for the burst's end and R57 has the rise end any transaction, and neither says what becomes
of it, so this is the model's choice (log entry 63). -/
def FlashPort.csRise (ready : Bool) (p : FlashPort) : FlashPort :=
  match p.soc with
  | some ⟨command, .forwarded _⟩ => { p with soc := none, side := .idle, busy := busyAfter command ready p.busy }
  | _ => { p with soc := none }

def socCsRise (ready : Bool) (s : State) : State := { s with port := s.port.csRise ready }

def execSocFlashCsRise (ready : Bool) (s : State) : Host.Outcome State Fault Refusal :=
  event s.port.soc.isSome (socCsRise ready) s

end Sys2Proof.Machine
end

