-- ==== Sys2Proof/Machine/Timing.lean ====
section
/-! DEFINITION. What time brings about: the part's own timed events in a fixed order, and a millisecond of the time base (R181, log
entry 6). -/

namespace Sys2Proof.Machine

/-- An event that is due, as a list of none or one. -/
def dueIf (condition : Bool) (c : Instr) : List Instr := if condition then [c] else []

/-- The records of which a decay step can be taken now (R136, R145). -/
def State.dueDecays (s : State) : List Instr :=
  ((List.range 16).filter fun i => s.decayDue i && s.vault.holder.isNone).map .decayStep

/-- The part's own events whose moment has come, in the order in which an idle step takes them (R181). -/
def State.dueEvents (s : State) : List Instr :=
  dueIf s.resetNext .ownerResetUpdate ++
  dueIf (s.gate.state == .released && reached s.gate.attach s.uptime) .attachDeadlineExpiry ++
  dueIf (s.gate.state == .attached && reached s.gate.complete s.uptime) .bootCompleteDeadlineExpiry ++
  dueIf (s.gate.state == .measuring && reached s.gate.dwell s.uptime) .holdDwellExpiry ++
  dueIf (s.gate.rebootPending && s.socRuns && reached s.gate.reboot s.uptime) .rebootTimerExpiry ++
  dueIf (s.gate.state == .running && reached s.gate.silence s.uptime) .silenceWatchExpiry ++
  dueIf (s.gate.state == .running && s.scanDue) .scanTimerExpiry ++
  dueIf s.verificationDue .verificationDeadlineExpiry ++
  dueIf (reached s.biu.window s.uptime) .presenceWindowTimeout ++
  dueIf s.pressDue .debouncedPress ++
  dueIf s.releaseDue .debouncedRelease ++
  dueIf s.holdDue .buttonHold ++
  dueIf (s.biu.reaction.periodOver s.uptime) (.patternPeriodEnd .reaction) ++
  dueIf (s.biu.presence.periodOver s.uptime) (.patternPeriodEnd .presence) ++
  dueIf (s.biu.host.periodOver s.uptime) (.patternPeriodEnd .host) ++
  dueIf s.onTimeOver .onTimeEnd ++
  s.dueDecays

/-- The event that an idle step takes. -/
def State.dueEvent (s : State) : Option Instr := s.dueEvents.head?

/-- A millisecond of the time base: the uptime, a count of 48 bits, rises by one (R181, log entry 26). -/
def tick (s : State) : State := { s with uptime := (s.uptime + 1) % 2 ^ 48 }

/-- A millisecond passes where the part has power. -/
def idle (s : State) : State := if s.powered then tick s else s

end Sys2Proof.Machine
end

