-- ==== Sys2Proof/Machine/Dispatch.lean ====
section
/-! DEFINITION. The meaning of every command: one arm for each constructor of Instr. -/

namespace Sys2Proof.Machine

/-- The effect of a command on everything but the queue. -/
def exec (i : Instr) (s : State) : Host.Outcome State Fault Refusal :=
  match i with
  | .powerOn landed => Sys2Proof.Machine.execPowerOn landed s
  | .bankSelection => Sys2Proof.Machine.execBankSelection s
  | .attachDeadlineExpiry => Sys2Proof.Machine.execAttachDeadlineExpiry s
  | .bootCompleteDeadlineExpiry => Sys2Proof.Machine.execBootCompleteDeadlineExpiry s
  | .holdDwellExpiry => Sys2Proof.Machine.execHoldDwellExpiry s
  | .socRestart => Sys2Proof.Machine.execSocRestart s
  | .rebootTimerExpiry => Sys2Proof.Machine.execRebootTimerExpiry s
  | .silenceWatchExpiry => Sys2Proof.Machine.execSilenceWatchExpiry s
  | .scanTimerExpiry => Sys2Proof.Machine.execScanTimerExpiry s
  | .deBlockAbsorbed => Sys2Proof.Machine.execDeBlockAbsorbed s
  | .frBurstStart => Sys2Proof.Machine.execFrBurstStart s
  | .frBurstComplete bytes => Sys2Proof.Machine.execFrBurstComplete bytes s
  | .seOperationComplete => Sys2Proof.Machine.execSeOperationComplete s
  | .keyMaterialGenerated => Sys2Proof.Machine.execKeyMaterialGenerated s
  | .storeWriteStart => Sys2Proof.Machine.execStoreWriteStart s
  | .storeWriteComplete => Sys2Proof.Machine.execStoreWriteComplete s
  | .storeWriteFailed => Sys2Proof.Machine.execStoreWriteFailed s
  | .verificationDeadlineExpiry => Sys2Proof.Machine.execVerificationDeadlineExpiry s
  | .socFlashCommand command => Sys2Proof.Machine.execSocFlashCommand command s
  | .socFlashForward => Sys2Proof.Machine.execSocFlashForward s
  | .socFlashCsRise ready => Sys2Proof.Machine.execSocFlashCsRise ready s
  | .linkTransactionIgnored received => Sys2Proof.Machine.execLinkTransactionIgnored received s
  | .badFrame frame => Sys2Proof.Machine.execBadFrame frame s
  | .frameTimeout received elapsed => Sys2Proof.Machine.execFrameTimeout received elapsed s
  | .overrun frame => Sys2Proof.Machine.execOverrun frame s
  | .poll clocked => Sys2Proof.Machine.execPoll clocked s
  | .identify identity payload => Sys2Proof.Machine.execIdentify identity payload s
  | .readAttention identity payload => Sys2Proof.Machine.execReadAttention identity payload s
  | .clearAttention identity payload => Sys2Proof.Machine.execClearAttention identity payload s
  | .setAlertMask identity payload => Sys2Proof.Machine.execSetAlertMask identity payload s
  | .setParameter identity payload => Sys2Proof.Machine.execSetParameter identity payload s
  | .readParameter identity payload => Sys2Proof.Machine.execReadParameter identity payload s
  | .keyInfo identity payload => Sys2Proof.Machine.execKeyInfo identity payload s
  | .keyGenerate identity payload => Sys2Proof.Machine.execKeyGenerate identity payload s
  | .keyImport identity payload => Sys2Proof.Machine.execKeyImport identity payload s
  | .keyExportPublic identity payload => Sys2Proof.Machine.execKeyExportPublic identity payload s
  | .keySign identity payload => Sys2Proof.Machine.execKeySign identity payload s
  | .keyDerive identity payload => Sys2Proof.Machine.execKeyDerive identity payload s
  | .keyRestrict identity payload => Sys2Proof.Machine.execKeyRestrict identity payload s
  | .keyRetire identity payload => Sys2Proof.Machine.execKeyRetire identity payload s
  | .keyErase identity payload => Sys2Proof.Machine.execKeyErase identity payload s
  | .blobWrite identity payload => Sys2Proof.Machine.execBlobWrite identity payload s
  | .blobRead identity payload => Sys2Proof.Machine.execBlobRead identity payload s
  | .extendDigest identity payload => Sys2Proof.Machine.execExtendDigest identity payload s
  | .extendData identity payload => Sys2Proof.Machine.execExtendData identity payload s
  | .readChains identity payload => Sys2Proof.Machine.execReadChains identity payload s
  | .readLog identity payload => Sys2Proof.Machine.execReadLog identity payload s
  | .advanceStage identity payload => Sys2Proof.Machine.execAdvanceStage identity payload s
  | .requesterWrite identity payload => Sys2Proof.Machine.execRequesterWrite identity payload s
  | .requesterRead identity payload => Sys2Proof.Machine.execRequesterRead identity payload s
  | .makeStatement identity payload => Sys2Proof.Machine.execMakeStatement identity payload s
  | .verifyStaged identity payload => Sys2Proof.Machine.execVerifyStaged identity payload s
  | .imageStatus identity payload => Sys2Proof.Machine.execImageStatus identity payload s
  | .abortImage identity payload => Sys2Proof.Machine.execAbortImage identity payload s
  | .armTrial identity payload => Sys2Proof.Machine.execArmTrial identity payload s
  | .confirmImage identity payload => Sys2Proof.Machine.execConfirmImage identity payload s
  | .rebootRouter identity payload => Sys2Proof.Machine.execRebootRouter identity payload s
  | .readCounters identity payload => Sys2Proof.Machine.execReadCounters identity payload s
  | .scanStatus identity payload => Sys2Proof.Machine.execScanStatus identity payload s
  | .vaultStatus identity payload => Sys2Proof.Machine.execVaultStatus identity payload s
  | .vaultClaim identity payload => Sys2Proof.Machine.execVaultClaim identity payload s
  | .credEnroll identity payload => Sys2Proof.Machine.execCredEnroll identity payload s
  | .credCheck identity payload => Sys2Proof.Machine.execCredCheck identity payload s
  | .credRetrieve identity payload => Sys2Proof.Machine.execCredRetrieve identity payload s
  | .credChange identity payload => Sys2Proof.Machine.execCredChange identity payload s
  | .credRemove identity payload => Sys2Proof.Machine.execCredRemove identity payload s
  | .ownerReset identity payload => Sys2Proof.Machine.execOwnerReset identity payload s
  | .ownerResetUpdate => Sys2Proof.Machine.execOwnerResetUpdate s
  | .decayStep record => Sys2Proof.Machine.execDecayStep record s
  | .setIndicatorPattern identity payload => Sys2Proof.Machine.execSetIndicatorPattern identity payload s
  | .setIndicatorClear identity payload => Sys2Proof.Machine.execSetIndicatorClear identity payload s
  | .presenceStatus identity payload => Sys2Proof.Machine.execPresenceStatus identity payload s
  | .reactionRead identity payload => Sys2Proof.Machine.execReactionRead identity payload s
  | .reactionWrite identity payload => Sys2Proof.Machine.execReactionWrite identity payload s
  | .patternWrite identity payload => Sys2Proof.Machine.execPatternWrite identity payload s
  | .provisionSlotGenerate identity payload => Sys2Proof.Machine.execProvisionSlotGenerate identity payload s
  | .provisionSlotPublic identity payload => Sys2Proof.Machine.execProvisionSlotPublic identity payload s
  | .provisionSlotBlob identity payload => Sys2Proof.Machine.execProvisionSlotBlob identity payload s
  | .provisionSlotErase identity payload => Sys2Proof.Machine.execProvisionSlotErase identity payload s
  | .provisionCredential identity payload => Sys2Proof.Machine.execProvisionCredential identity payload s
  | .provisionLayout identity payload => Sys2Proof.Machine.execProvisionLayout identity payload s
  | .provisionGolden identity payload => Sys2Proof.Machine.execProvisionGolden identity payload s
  | .lockFactory identity payload => Sys2Proof.Machine.execLockFactory identity payload s
  | .btnLevelChange pressed => Sys2Proof.Machine.execBtnLevelChange pressed s
  | .debouncedPress => Sys2Proof.Machine.execDebouncedPress s
  | .debouncedRelease => Sys2Proof.Machine.execDebouncedRelease s
  | .buttonHold => Sys2Proof.Machine.execButtonHold s
  | .presenceWindowTimeout => Sys2Proof.Machine.execPresenceWindowTimeout s
  | .patternPeriodEnd source => Sys2Proof.Machine.execPatternPeriodEnd source s
  | .powerLoss landed => Sys2Proof.Machine.execPowerLoss landed s
  | .onTimeEnd => Sys2Proof.Machine.execOnTimeEnd s

end Sys2Proof.Machine
end

