-- ==== Sys2Proof/Machine/Step.lean ====
section
/-! DEFINITION. A step: the command at the front of the queue or, with an empty queue, what time brings about. -/

namespace Sys2Proof.Machine

/-- A step on an empty queue: the first event that is due, or a millisecond in which nothing is (R181, log entry 6). -/
def idleStep (s : State) : Host.Outcome State Fault Refusal :=
  match s.powered, s.dueEvent with
  | true, some c => exec c s
  | _, _ => .next (idle s)

/-- A step takes the command at the front of the queue and has its effect on the state with the queue's rest. -/
def step (s : State) : Host.Outcome State Fault Refusal :=
  match s.pending with
  | c :: rest => exec c { s with pending := rest }
  | [] => idleStep s

/-- The state with the command that a word spells put at the front of its queue; unchanged where the word spells none (log entry 27). -/
def State.withFetchWord (s : State) (nbits w : Nat) : State :=
  match decodeTableWord nbits w with
  | some c => { s with pending := c :: s.pending }
  | none => s

end Sys2Proof.Machine
end

