-- ==== Sys2Proof/Safety.lean ====
section
/-! DEFINITION. What counts as a safe run, in the words that the claims use: the laws that every state of a run keeps, and the shapes of what a
command leaves behind. -/

namespace Sys2Proof.Machine

/-! ## The laws -/

/-- A chain as its log entries make it: 32 zero bytes, extended in log order by the event digests of the entries for that chain (R32). -/
def Ism.replay (m : Ism) (chain : Nat) : Bytes :=
  (m.log.filter fun e => e.chain == chain).foldl (fun value e => extendChain value e.digest) zeroDigest

/-- How many entries of some kinds the log holds. -/
def Ism.entriesOf (kinds : List LogKind) (m : Ism) : Nat := m.log.countP fun e => kinds.contains e.kind

/-- The entries that the Boot Gate's measurements have made (R73). -/
abbrev Ism.measurements (m : Ism) : Nat := m.entriesOf [.bootRegion, .recoveryMark]

/-- The law of chains and log (R32), the law of the sequence numbers (R34), and the bounds on the entries that a request or an advance makes:
a request's has one of the first 36 places, and there are no more stage marks than stages passed (R36, R30). -/
structure Ism.Lawful (m : Ism) : Prop where
  chains : ∀ c < 8, m.chain c = m.replay c
  sequences : ∀ (i : Nat) e, m.log[i]? = some e → e.sequence = i
  requests : ∀ (i : Nat) e, m.log[i]? = some e → e.kind = .request → i < 36
  stageMarks : m.entriesOf [.stageMark] ≤ m.stage.number

/-- SOC_HOLD is asserted exactly while the Boot Gate holds the SoC (R65), and ALERT is driven exactly while a flag that is set is in the mask
(R176), as long as the part has power; and the newest of the link's moments is the link as it stands (log entry 10). -/
def State.PinsFollow (s : State) : Prop :=
  s.powered = true →
    s.pins.socHold = s.held ∧ s.pins.alert = s.alertLevel ∧ s.pins.past.head? = some s.moment

/-- While the vault is UNCLAIMED, no key slot of class OWNER and no credential record of class OWNER exists (R144). -/
def Records.OwnerLaw (r : Records) : Prop :=
  r.vault.claimed = false →
    (∀ (i : Nat) k, r.slot i = some k → k.slotClass ≠ .owner) ∧ (∀ (i : Nat) c, r.cred i = some c → c.isOwner = false)

/-- No two key slots that are not EMPTY share a label, and no two present credential records do (R4). -/
def Records.LabelLaw (r : Records) : Prop :=
  (∀ (i j : Nat) k l, r.slot i = some k → r.slot j = some l → k.label = l.label → i = j) ∧
    (∀ (i j : Nat) c d, r.cred i = some c → r.cred j = some d → c.label = d.label → i = j)

/-- Identity 0 is enabled with ceiling LOADER, and some enabled identity holds ADMIN (R27). -/
def Records.AdminLaw (r : Records) : Prop :=
  (∀ q, r.requesters[0]? = some q → q.enabled = true ∧ q.ceiling = .loader) ∧
    ∃ (i : Nat) (q : Requester), r.requesters[i]? = some q ∧ q.enabled = true ∧ inSet q.rights rightAdmin = true

/-- The counts of the part stay within the widths and ends that the manual gives them (R64, R79, R62, R88, R158, R173, R174, R181). -/
structure State.InRange (s : State) : Prop where
  releaseCount : s.gate.releaseCount < 64
  failures : s.gate.failures ≤ 3
  rounds : s.gate.scanRecord.rounds ≤ 65535
  skips : s.gate.scanRecord.skips ≤ 255
  badRun : s.link.badRun ≤ 255
  overruns : s.link.overruns ≤ 255
  violations : s.port.violations ≤ 65535
  fires : ∀ (i : Nat) n, s.reactions.counts[i]? = some n → n ≤ 255
  uptime : s.uptime < 2 ^ 48

/-- The scan jobs that are not yet placed (R49, R87). -/
def BootGate.unplacedScans (g : BootGate) : List Job := (g.scanRound.map (·.unplaced)).getD []

/-- The Boot Gate's jobs that wait for an entry of the Flash Reader are BOOT_MEASURE jobs and, for a scan round, SCAN jobs, and Image
Acceptance's is an IMAGE_VERIFY job (R48, R49; the lists of what is not placed are log entry 22). -/
structure State.JobsMatch (s : State) : Prop where
  measured : ∀ j ∈ s.gate.unplaced, j.purpose = .bootMeasure
  scanned : ∀ j ∈ s.gate.unplacedScans, j.purpose = .scan
  verified : ∀ j ∈ s.image.unplaced, j.purpose = .imageVerify

/-- No golden set and no candidate set has more than 8 regions (R92, R95). -/
structure Records.FewRegions (r : Records) : Prop where
  goldenA : r.goldenA.regions.length ≤ 8
  goldenB : r.goldenB.regions.length ≤ 8
  candidate : ∀ regions, r.staged.candidate = some regions → regions.length ≤ 8

/-- A write or update puts no set of more than 8 regions into the records (R103, R188). -/
def StoreOp.FewRegions : StoreOp → Prop
  | .goldenPut _ _ regions => regions.length ≤ 8
  | .stagedPut record => ∀ regions, record.candidate = some regions → regions.length ≤ 8
  | _ => True

/-- The measurement jobs that have not ended: in the Flash Reader's list, or not yet placed (R49, R72). -/
def State.measureJobs (s : State) : Nat := (s.reader.entries ++ s.gate.unplaced).countP (·.purpose == .bootMeasure)

/-- What bounds the log: between two starts of measurement the Boot Gate makes at most 8 entries, one for each measurement job of one selection
(R36, R72, R73). Jobs are left only in a measurement, and a bank is selected only where none is left and no entry has been made; a reboot is
pending only where the SoC runs; and one write of a trial is made at a time (R67, R68, R70, R82). -/
structure State.LogBounded (s : State) : Prop where
  jobs : s.measureJobs ≤ s.gate.jobsLeft
  total : s.ism.measurements + s.gate.jobsLeft ≤ 8
  measuring : 0 < s.gate.jobsLeft → s.gate.state = .measuring ∧ s.gate.dwell = none ∧ s.gate.selection = .idle
  selecting : s.gate.selection ≠ .idle → s.gate.state = .measuring ∧ s.gate.dwell = none ∧ s.ism.measurements = 0
  reboot : s.gate.rebootPending = true → s.held = false
  trial : (s.begun.countP fun item => item.after == .trialSelected) ≤ if s.gate.selection = .trialWrite then 1 else 0
  heldBack : ∀ item, s.keys.held = some item → item.after ≠ .trialSelected
  records : s.kept.FewRegions
  writes : ∀ item ∈ s.begun, item.op.FewRegions
  manifest : ∀ m, s.image.verification.bind (·.manifest) = some m → m.segments.length ≤ 8

/-- A state of a safe run keeps every law. -/
structure State.Safe (s : State) : Prop where
  pins : s.PinsFollow
  measured : s.ism.Lawful
  owner : s.kept.OwnerLaw
  labels : s.kept.LabelLaw
  admin : s.kept.AdminLaw
  inRange : s.InRange
  jobs : s.JobsMatch
  bounded : s.LogBounded

/-! ## Requests -/

/-- A request frame of an identity is read and admitted in a state: the part has power, the SoC is not held, the link is IDLE, the payload is
at most 1024 bytes, and the identity is admitted (R26, R167, R170). -/
structure State.Hears (s : State) (identity : Byte) (payload : Bytes) : Prop where
  powered : s.powered = true
  running : s.held = false
  idle : s.link.state = .idle
  length : payload.length ≤ 1024
  known : identity.toNat ≤ 7
  admitted : s.admits identity.toNat = true

/-- A reply is ready, with the release marker as it stands, and no request is in service (R171). -/
structure State.Answers (t : State) (identity : Byte) (status : Status) (payload : Bytes) : Prop where
  ready : t.link.state = .ready
  served : t.link.request = none
  reply : t.link.reply = some ⟨status, t.marker, identity, payload⟩

/-- What no request changes but through the blocks its own rule names: the records, the boot flash side, image acceptance, the penalties, the
fire marks and counts, the time and the queue; and no request opens the window. The accepted frame has set the bad-frame run to 0 (R170). -/
structure RequestFrame (s t : State) : Prop where
  kept : t.kept = s.kept
  keys : t.keys = s.keys
  reader : t.reader = s.reader
  readerContext : t.digest.reader = s.digest.reader
  port : t.port = s.port
  image : t.image = s.image
  penalty : t.vault.penalty = s.vault.penalty
  decay : t.vault.decay = s.vault.decay
  reactions : t.reactions = s.reactions
  overruns : t.link.overruns = s.link.overruns
  badRun : t.link.badRun = 0
  uptime : t.uptime = s.uptime
  powered : t.powered = s.powered
  draws : t.draws = s.draws
  pending : t.pending = s.pending

/-- What most requests leave besides: the chains and log, the engine's list, the flags and the mask. The Boot Gate has only taken the
admission of the frame (R77, R85). -/
structure Quiet (s t : State) : Prop extends RequestFrame s t where
  gate : t.gate = s.admittedGate
  ism : t.ism = s.ism
  engine : t.engine = s.engine
  flags : t.link.flags = s.link.flags
  mask : t.link.mask = s.link.mask

/-- A request has been answered with a status and a payload, and nothing else has changed; the LINK context and the vault are released
(R171, R46, R145). -/
structure Replies (s : State) (identity : Byte) (status : Status) (payload : Bytes) (t : State) : Prop extends Quiet s t where
  answers : t.Answers identity status payload
  store : t.store = s.store
  biu : t.biu = s.biu
  digest : t.digest = s.digest.clear .link
  vault : t.vault = s.vault.releaseRequest

/-- A request stays in service while something it has begun goes on. -/
structure State.Serves (t : State) (code : Req) (identity : Byte) (payload : Bytes) : Prop where
  serving : t.link.state = .serving
  request : t.link.request = some ⟨code, identity.toNat, payload⟩

/-- A request has handed one write or update to the store, is answered after it, and nothing else has changed but the button unit's record
as given (R182, R183). -/
structure Hands (s : State) (code : Req) (identity : Byte) (payload : Bytes) (op : StoreOp) (after : After) (biu : Biu)
    (t : State) : Prop extends Quiet s t where
  serves : t.Serves code identity payload
  store : t.store = { s.store with waiting := s.store.waiting ++ [⟨op, after⟩] }
  digest : t.digest = s.digest
  biu : t.biu = biu

/-- A request has begun a digest in the LINK context, keyed where a key is given, and nothing else has changed but the button unit's
record as given (R46). -/
structure Digests (s : State) (code : Req) (identity : Byte) (payload : Bytes) (key : Option Bytes) (bytes : Bytes)
    (service : Service) (biu : Biu) (t : State) : Prop extends Quiet s t where
  serves : t.Serves code identity payload
  service : t.link.service = service
  digest : t.digest = s.digest.beginLink key bytes
  store : t.store = s.store
  biu : t.biu = biu

/-- A vault request waits for the vault, in service, after the work that waits already, and nothing else has changed (R145). -/
structure Waits (s : State) (code : Req) (identity : Byte) (payload : Bytes) (t : State) : Prop extends Quiet s t where
  serves : t.Serves code identity payload
  service : t.link.service = .vaultWait
  vault : t.vault = { s.vault with waiting := s.vault.waiting ++ [.request] }
  store : t.store = s.store
  digest : t.digest = s.digest
  biu : t.biu = s.biu

/-- The vault serves the request in service, which holds it from then on (R145). -/
def State.vaultServes (s : State) (r : Request) : State :=
  serveVault r { s with vault := { s.vault with holder := some .request }, link := { s.link with service := .none } }

/-- The requests that the vault serves, as commands of an identity with a payload, where they pass step 6 (R145, R170; log entry 17). -/
def State.vaultRequests (s : State) (identity : Byte) (payload : Bytes) : List (Req × Instr) :=
  [(.vaultStatus, .vaultStatus identity payload), (.credCheck, .credCheck identity payload),
    (.credRetrieve, .credRetrieve identity payload), (.credChange, .credChange identity payload)] ++
  (if s.hasRight identity.toNat rightOwner then
    [(.vaultClaim, .vaultClaim identity payload), (.credEnroll, .credEnroll identity payload),
      (.credRemove, .credRemove identity payload), (.ownerReset, .ownerReset identity payload)] else []) ++
  (if s.kept.lifecycle = .manufacture then [(.provisionCredential, .provisionCredential identity payload)] else []) ++
  match namedParam payload with
  | some (.vault _) =>
    (.readParameter, .readParameter identity payload) ::
      if s.hasRight identity.toNat rightOwner then [(.setParameter, .setParameter identity payload)] else []
  | _ => []

/-- The button unit's record with the presence window consumed: closed, and its source absent (R129, R150). -/
def Biu.consumed (b : Biu) : Biu := { b with window := none, presence := Source.absent }

/-! ## The conditions of a request -/

/-- The checks of R10 on a slot, for a kind and a usage: the slot is not EMPTY, of the kind, ACTIVE, with the usage, with the requester in its
answer set, not suspended, and its binding matches. -/
structure State.Usable (s : State) (i identity : Nat) (kind : KeyKind) (usage : Nat) (k : KeySlot) : Prop where
  index : i ≤ 23
  slot : s.kept.slot i = some k
  kind : k.material.kind = kind
  active : k.state = .active
  usage : inSet k.usage usage = true
  answers : inSet k.answerSet identity = true
  free : s.suspended i = false
  binding : s.ism.bindingMatches k.binding = true

/-- Checks 1 to 5 of R17 on the creation of a slot. -/
structure State.Creatable (s : State) (i identity : Nat) (p : Policy) (slotClass : SlotClass) : Prop where
  index : 4 ≤ i ∧ i ≤ 23
  named : SlotClass.ofCode p.classCode = some slotClass
  class_ : slotClass ≠ .factory
  right : s.hasRight identity slotClass.right = true
  policy : p.wellFormed slotClass = true
  empty : s.kept.slot i = none
  label : s.kept.slotLabelFree p.label = true

/-- The checks on a request that manages a slot: SYSTEM or OWNER by its number, with the right of its class, and no owner reset begun where
the class is OWNER (R2, R21, R22, R144). -/
structure State.Managed (s : State) (i identity : Nat) (k : KeySlot) : Prop where
  index : 4 ≤ i ∧ i ≤ 23
  slot : s.kept.slot i = some k
  right : s.hasRight identity k.slotClass.right = true
  reset : k.slotClass = .owner → s.resetBegun = false

/-! ## The check that fails first -/

/-- Of checks in their order, each with the reply of its failure, the reply of the first that fails. -/
def firstFailure (checks : List (Bool × Status)) : Option Status := (checks.find? fun c => !c.1).map (·.2)

/-- The reply of the first check on slot `i` that fails: its number, that it is not EMPTY, and the checks that follow (R10, R20, R21, R22). -/
def State.failureOnSlot (s : State) (i : Nat) (checks : KeySlot → List (Bool × Status)) : Option Status :=
  if 23 < i then some .badArgument
  else match s.kept.slot i with
    | none => some .slotEmpty
    | some k => firstFailure (checks k)

/-- A row of the table of R10: what a request asks of its slot. The answer set is asked for in each row that this describes. -/
structure SlotRow where
  kinds : List KeyKind
  active : Bool
  usage : Option Nat
  suspension : Bool
  binding : Bool

/-- The rows of the table of R10. -/
def exportRow : SlotRow := ⟨[.signingPair, .verifyPublic], false, none, false, false⟩
def blobRow : SlotRow := ⟨[.blob], false, some useReadBlob, false, true⟩
def signRow : SlotRow := ⟨[.signingPair], true, some useSign, true, true⟩
def deriveRow : SlotRow := ⟨[.secret], true, some useDerive, true, true⟩
def unwrapRow : SlotRow := ⟨[.secret], true, some useUnwrap, true, true⟩
def statementRow : SlotRow := ⟨[.signingPair], true, some useStatement, true, true⟩
def authorityRow : SlotRow := ⟨[.signingPair, .verifyPublic], true, some useAuthority, true, false⟩

/-- The reply of the first of the eight checks of R10 that fails, of those that a row asks for. -/
def State.slotFailure (s : State) (i identity : Nat) (row : SlotRow) : Option Status :=
  s.failureOnSlot i fun k =>
    [(row.kinds.contains k.material.kind, .badArgument), (!row.active || k.state == .active, .wrongState),
      (row.usage.all (inSet k.usage), .notPermitted), (inSet k.answerSet identity, .notPermitted),
      (!row.suspension || !s.suspended i, .slotSuspended),
      (!row.binding || s.ism.bindingMatches k.binding, .bindingMismatch)]

/-- The reply of the first check of R21 and R22 on a managed slot that fails; the order on an EMPTY slot 0..3 is log entry 47. -/
def State.manageFailure (s : State) (i identity : Nat) : Option Status :=
  s.failureOnSlot i fun k => [(decide (4 ≤ i) && s.hasRight identity k.slotClass.right, .notPermitted)]

/-- The reply of the first check of R20 on a later chunk of a fitting length that fails, in the order of R20 (log entry 59). -/
def State.appendFailure (s : State) (i identity offset : Nat) (chunk : Bytes) : Option Status :=
  s.failureOnSlot i fun k =>
    [(k.material.kind == .blob, .badArgument), (k.state == .active, .wrongState),
      (decide (4 ≤ i) && s.hasRight identity k.slotClass.right, .notPermitted),
      (offset == k.material.blobLength && decide (offset + chunk.length ≤ 1024), .badArgument)]

/-- The reply of the first of the checks 1 to 5 of R17 that fails; slots 0..3 before the class is log entry 61. -/
def State.createFailure (s : State) (i identity : Nat) (p : Policy) : Option Status :=
  let slotClass := SlotClass.ofCode p.classCode
  firstFailure
    [(decide (i ≤ 23), .badArgument), (decide (4 ≤ i), .notPermitted),
      (slotClass == some .system || slotClass == some .owner, .badArgument),
      (slotClass.any fun c => s.hasRight identity c.right, .notPermitted),
      (slotClass.any p.wellFormed, .badArgument), ((s.kept.slot i).isNone, .slotOccupied),
      (s.kept.slotLabelFree p.label, .labelTaken)]

/-- The reply of the first of the checks 1 to 5 of R128 that fails, for a request whose other fields fit a record of the kinds given, and that
tests the answer set and the seal as its row says. -/
def State.credFailure (s : State) (identity : Nat) (label : Bytes) (fits : CredKind → Bool) (answers sealing : Bool) : Option Status :=
  if labelFits label = false then some .badArgument
  else match s.kept.findCred label with
    | none => some .badArgument
    | some (_, c) => firstFailure
        [(fits c.kind, .badArgument), (!answers || inSet c.answerSet identity, .notPermitted),
          (!sealing || s.ism.bindingMatches c.sealing, .bindingMismatch)]

/-- The lengths of a new value and an old passphrase that CRED CHANGE allows for a kind, where an old passphrase may be absent (R140,
R141). -/
def changeFits (new old : Bytes) : CredKind → Bool
  | .verifier => decide (1 ≤ new.length) && decide (new.length ≤ 128) && decide (old.length ≤ 128)
  | .secret => decide (8 ≤ new.length) && decide (new.length ≤ 64) && old.isEmpty

/-- A slot's policy is no wider than before: no usage and no identity is added, a binding and a limit stay, the limit or a lower one, and class,
kind and label are the same; and a RETIRED slot stays so (R5, R21). -/
structure KeySlot.Narrower (k l : KeySlot) : Prop where
  slotClass : l.slotClass = k.slotClass
  kind : l.material.kind = k.material.kind
  label : l.label = k.label
  usage : ∀ u, inSet l.usage u = true → inSet k.usage u = true
  answers : ∀ i, inSet l.answerSet i = true → inSet k.answerSet i = true
  binding : k.binding ≠ none → l.binding = k.binding
  limit : ∀ held, k.useLimit = some held → ∃ limit, l.useLimit = some limit ∧ limit ≤ held
  retired : k.state = .retired → l.state = .retired

/-- The credential that a label names (R128). -/
structure State.Names (s : State) (label : Bytes) (i : Nat) (c : Credential) : Prop where
  fits : labelFits label = true
  found : s.kept.findCred label = some (i, c)

/-! ## Digests -/

/-- A context after some more of its blocks have been absorbed. -/
def Context.absorbs : Nat → Context → Context
  | 0, c => c
  | n + 1, c => Context.absorbs n c.absorb

/-- A context that is given a piece, every whole block of which is then absorbed (R47). -/
def Context.takes (c : Context) (piece : Bytes) : Context :=
  Context.absorbs ((c.give piece).input.length / 64) (c.give piece)

/-- A context comes to its result: as long as it is not FINISHED it has a block ready, and then it holds the digest (R44). -/
def Context.Yields (c : Context) (digest : Bytes) : Prop :=
  ∃ n, (∀ k < n, (Context.absorbs k c).blockReady = true) ∧ (Context.absorbs n c).state = .finished ∧
    (Context.absorbs n c).result = digest

/-- The block being absorbed completes the digest of a request in service (R44, R46). -/
structure State.LinkFinishes (s : State) : Prop where
  powered : s.powered = true
  absorbing : s.digest.absorbing = some ⟨.link, false⟩
  finished : s.digest.link.absorb.state = .finished

/-- The digest that the LINK context then holds. -/
def State.linkDigest (s : State) : Bytes := s.digest.link.absorb.result

/-! ## Flash jobs -/

/-- The block being absorbed completes the digest of the job in progress, every byte of which has been read (R52). -/
structure State.JobFinishes (s : State) (j : Job) : Prop where
  powered : s.powered = true
  absorbing : s.digest.absorbing = some ⟨.reader, false⟩
  finished : s.digest.reader.absorb.state = .finished
  current : s.reader.current = some j
  read : j.remaining = 0
  live : s.reader.cancelled = false

/-- The digest that the job has then measured (R52). -/
def State.measuredDigest (s : State) : Bytes := s.digest.reader.absorb.result

/-- The bytes of a burst of the job in progress have been read at the flash (R51). -/
structure State.BurstArrives (s : State) (j : Job) (bytes : Bytes) : Prop where
  powered : s.powered = true
  current : s.reader.current = some j
  bursting : s.reader.bursting = true
  whole : bytes.length = min 256 j.remaining
  left : 0 < j.remaining
  inside : j.remaining ≤ j.length

/-- The READER context that takes a burst of a job: opened anew for the first (R47). -/
def State.burstContext (s : State) (j : Job) : Context := if j.remaining = j.length then Context.opened else s.digest.reader

/-- The READER context after a burst of a job that is not a manifest's: given the bytes, and asked to finish with the last (R51). -/
def State.plainContext (s : State) (j : Job) (bytes : Bytes) : Context :=
  if j.remaining ≤ 256 then ((s.burstContext j).give bytes).finish else (s.burstContext j).give bytes

/-- The length of the signed part known after a burst of a manifest job: read from the first burst, for a segment count in 1..8 (R53). -/
def State.signedAfter (s : State) (j : Job) (bytes : Bytes) : Option Nat :=
  if j.remaining = j.length then
    if 1 ≤ (byteAt 7 bytes).toNat ∧ (byteAt 7 bytes).toNat ≤ 8 then some (16 + 48 * (byteAt 7 bytes).toNat) else none
  else s.reader.signedLength

/-- The READER context after a burst of a manifest job: given the signed bytes of the burst, and asked to finish with the last of them
(R53). -/
def State.manifestContext (s : State) (j : Job) (bytes : Bytes) : Context :=
  match s.signedAfter j bytes with
  | some n =>
    if j.length - j.remaining < n then
      if n ≤ j.length - j.remaining + bytes.length then
        ((s.burstContext j).give (bytes.take (n - (j.length - j.remaining)))).finish
      else (s.burstContext j).give (bytes.take (n - (j.length - j.remaining)))
    else s.digest.reader
  | none => s.digest.reader

/-- What reading a burst leaves in every other block. -/
structure BurstFrame (s t : State) : Prop where
  port : t.port = { s.port with side := .idle }
  linkContext : t.digest.link = s.digest.link
  kept : t.kept = s.kept
  store : t.store = s.store
  link : t.link = s.link
  ism : t.ism = s.ism
  image : t.image.verification = s.image.verification
  uptime : t.uptime = s.uptime

/-! ## The SoC's view -/

/-- Where each byte of an access comes from: its physical address, or nowhere for one that the port fills (R59). -/
def FlashAccess.bytes : FlashAccess → List (Option Nat)
  | .read address length => (List.range length).map fun k => some (address + k)
  | .fill length => List.replicate length none
  | .command _ | .plain => []

/-- The physical address of a SoC address under a written layout and the mapping of a release: the boot view below S, the staging view in
[S, 2S), and the same address from 2S on; none where the port fills the boot view beyond the recovery region (R59). -/
def Layout.mapped (l : Layout) (m : Mapping) (address : Nat) : Option Nat :=
  if address < l.bankSize then
    match m.booted with
    | .bank bank => some ((match bank with | .a => 0 | .b => l.bankSize) + address)
    | .recovery => if address < l.recoverySize then some (2 * l.bankSize + address) else none
  else if address < 2 * l.bankSize then
    some ((match m.staging with | .a => 0 | .b => l.bankSize) + (address - l.bankSize))
  else some address

/-! ## Verification -/

/-- The verification is rejected: its record is closed, its operation discarded, and the rejection handed to the store (R105). -/
structure Rejected (s : State) (fields : Option ImageFields) (progress : Nat) (reason : RejectReason) (t : State) : Prop where
  store : t.store = { s.store with
    waiting := s.store.waiting ++ [⟨.stagedPut (.rejected fields progress reason), .silent⟩] }
  closed : t.image = ⟨none, none⟩
  engine : t.engine = s.engine.filter (fun op => !op.isVerify)
  kept : t.kept = s.kept

/-- The verification's job in progress is cancelled: removed at once with its context where no burst of it is being read, and otherwise marked, to
be removed with that burst (R54). -/
structure VerifyJobGone (s t : State) : Prop where
  gone : s.reader.bursting = false → ∀ j, t.reader.current = some j → j.purpose ≠ .imageVerify
  context : ∀ j, s.reader.current = some j → j.purpose = .imageVerify → s.reader.bursting = false →
    t.digest.reader = Context.cleared
  marked : ∀ j, s.reader.current = some j → j.purpose = .imageVerify → s.reader.bursting = true →
    t.reader.current = some j ∧ t.reader.cancelled = true

/-- A verification goes on to a job, with its record as given: the job is in the Flash Reader's list, or waits for an entry (R49). -/
structure ReadsNext (s : State) (v : Verification) (j : Job) (t : State) : Prop where
  record : t.image.verification = some v
  placed : j ∈ t.reader.entries ++ t.image.unplaced.toList
  store : t.store = s.store
  kept : t.kept = s.kept

/-! ## Events -/

/-- A release: SOC_HOLD is deasserted, the release count rises by one from 63 to 0, the attach deadline starts at ATTACH_LIMIT seconds, and the
Flash Port takes the mapping of the selected bank (R76, R59). -/
structure Released (s t : State) : Prop where
  state : t.gate.state = .released
  socHold : t.pins.socHold = false
  count : t.gate.releaseCount = (s.gate.releaseCount + 1) % 64
  attach : t.gate.attach = some (s.uptime + 1000 * s.kept.params.attachLimit)
  bank : ∀ bank, s.gate.selected = some (.bank bank) → t.port.mapping = some ⟨.bank bank, bank.other⟩
  recovery : s.gate.selected = some .recovery → t.port.mapping = some ⟨.recovery, s.kept.selector.active.other⟩

/-- The fire counts after a condition event: raised by one, saturating at 255, for every matching entry (R160). -/
def State.raisedCounts (s : State) (condition : Condition) (count : Nat) : Vector Nat 8 :=
  s.reactions.counts.mapIdx fun i n => if (s.matching condition count).contains i then min (n + 1) 255 else n

/-- The flags that a condition event adds: REACTION where it matches an entry (R160). -/
def State.reactionFlag (s : State) (condition : Condition) (count : Nat) : BitVec 12 :=
  if s.matching condition count = [] then 0 else Flag.reaction.set

/-- A writer that answers no request when its write ends (R182, R183). -/
def After.unanswering : After → Bool
  | .silent | .resetDone false | .reactionWrite _ | .trialSelected | .decayed _ => true
  | _ => false

/-- A start of measurement finds every write that bank selection waits for ended, and a staged record that is VERIFYING: it rejects the record
with INTERRUPTED, in the same event (R67, R68, R106). -/
def State.interrupts (s : State) : Bool := s.gateWritesDone && s.kept.staged == .verifying

/-- The rejection that a start of measurement hands to the store in its own event: with the fields and the progress of a verification that is
open, and of a stalled record with none and 0 (R106, log entry 41). -/
def State.interruption (s : State) : List StoreItem :=
  if s.interrupts then [⟨.stagedPut (.rejected s.image.knownFields s.image.progress .interrupted), .silent⟩] else []

/-- The IMAGE_VERIFY and SCAN jobs are cancelled: those that wait leave the list at once, and so does the job in progress with its context where
no burst of it is being read; otherwise it is marked, to be removed with that burst (R54). -/
structure JobsCancelled (s t : State) : Prop where
  waiting : ∀ j ∈ t.reader.waiting, j.purpose = .bootMeasure
  gone : s.reader.bursting = false → ∀ j, t.reader.current = some j → j.purpose = .bootMeasure
  context : s.reader.bursting = false → ∀ j, s.reader.current = some j → j.purpose ≠ .bootMeasure →
    t.digest.reader = Context.cleared
  marked : s.reader.bursting = true → ∀ j, s.reader.current = some j → j.purpose ≠ .bootMeasure → 0 < j.remaining →
    t.reader.current = some j ∧ t.reader.bursting = true ∧ t.reader.cancelled = true

/-- A start of measurement ends the boot (R67): what it clears in each block, and what it leaves. Every deadline is stopped, that of an open
verification too (log entry 14), the scan round is abandoned, and bank selection is awaited (R68, R87); the verification is stopped at once
where no write that bank selection waits for is begun (R106); a write begun goes to its end and answers nobody (R182, R183; of a KEY IMPORT
log entry 36); and with the request the LINK context, the vault and a write held back for it are released (R46, R145, R146, R175; log entry
55). -/
structure BootStopped (shortPress : Bool) (s t : State) : Prop where
  state : t.gate.state = .measuring
  socHold : t.pins.socHold = true
  selection : t.gate.selection = .awaiting shortPress s.gateWritesDone
  deadlines : t.gate.attach = none ∧ t.gate.complete = none ∧ t.gate.dwell = none ∧ t.gate.reboot = none ∧
    t.gate.silence = none ∧ t.gate.scanTimer = none
  marks : t.gate.rebootPending = false ∧ t.gate.recovery = false ∧ t.gate.audit = false
  counts : t.gate.releaseCount = s.gate.releaseCount ∧ t.gate.failures = s.gate.failures
  round : t.gate.scanRound = none
  jobs : (∀ j ∈ s.gate.unplaced, j.purpose = .bootMeasure) → JobsCancelled s t
  image : t.image = if s.gateWritesDone then ⟨none, none⟩ else
    ⟨s.image.verification.map fun v => { v with deadline := none }, none⟩
  making : t.store.making = s.store.making.map StoreItem.orphaned
  waiting : t.store.waiting = s.store.waiting.map StoreItem.orphaned ++ s.interruption
  writes : t.begun.map (·.op) = s.begun.map (·.op) ++ s.interruption.map (·.op)
  unanswered : ∀ item ∈ t.begun, item.after.unanswering = true
  ism : t.ism = ismAtStart
  link : t.link.state = .idle ∧ t.link.request = none ∧ t.link.service = .none ∧ t.link.reply = none ∧ t.link.flags = 0 ∧
    t.link.mask = s.link.mask ∧ t.link.overruns = s.link.overruns
  linkContext : t.digest.link = Context.cleared
  holder : t.vault.holder = if s.vault.holder = some .request then none else s.vault.holder
  released : .request ∉ t.vault.waiting
  suspended : ∀ i, t.suspended i = false
  held : t.keys.held = none
  engine : t.engine = []
  fired : ∀ (i : Nat) mark, t.reactions.fired[i]? = some mark → mark = false
  window : t.biu.window = none
  sources : t.biu.reaction = Source.absent ∧ t.biu.presence = Source.absent ∧ t.biu.host = Source.absent
  button : t.biu.button = s.biu.button
  soc : t.port.soc = none
  kept : t.kept = s.kept
  penalty : t.vault.penalty = s.vault.penalty
  decay : t.vault.decay = s.vault.decay
  uptime : t.uptime = s.uptime
  powered : t.powered = s.powered
  pending : t.pending = s.pending

/-- A start of measurement that comes with no change of its cause's own: the bad-frame run, the fire counts, the press timer and the vault's
list, but for the request in it, stand as well. -/
structure BootEnded (shortPress : Bool) (s t : State) : Prop extends BootStopped shortPress s t where
  badRun : t.link.badRun = s.link.badRun
  fires : t.reactions.counts = s.reactions.counts
  press : t.biu.press = s.biu.press
  vaultWaiting : t.vault.waiting = s.vault.waiting.filter (· != .request)

end Sys2Proof.Machine
end

