-- ==== Sys2Proof/Certificates/Slice0/Obligations.lean ====
section
/-! DEFINITION. The statements for the provers. -/

open Sys2Proof Sys2Proof.Machine

/-! ## Requests that read -/

/-- IDENTIFY answers with the device type, the lifecycle, the serial, the asking identity, the identities admitted, the
stage, the Boot Gate's state after the admission and the claim state (R179); IMAGE STATUS, SCAN STATUS and PRESENCE
STATUS with their figures (R107, R89, R151); READ COUNTERS with the four counters, the active bank, both golden sets'
summaries and the layout (R108); REQUESTER READ with the eight records as held, the stage and the identities admitted at
that moment (R28); VAULT STATUS with the vault record, the window and every present record's 29 bytes, without a value
of any (R130). None of them changes anything. Two figures are the model's: 0 ms left of a deadline that is stopped while
its verification is open (log entry 40), and 0 seconds left of a window at its closing time (log entry 43). -/
def Obligations.RequestsWithoutPayloadAnswerAndChangeNothing : Prop :=
  (∀ (s : State) (identity : Byte), s.Hears identity [] →
    ∃ t, exec (.identify identity []) s = .next t ∧
      Replies s identity .ok
        ([0x01, s.kept.lifecycle.code] ++ padTo 16 (s.kept.serial.take 16) ++
          [identity, s.admittedSet, byteOf s.ism.stage.number, s.admittedGate.state.code, yesNo s.kept.vault.claimed]) t) ∧
  (∀ (s : State) (identity : Byte), s.Hears identity [] →
    (∃ t, exec (.imageStatus identity []) s = .next t ∧
      Replies s identity .ok ([s.kept.staged.code] ++ knownBytes s.shownFields ++ [byteOf s.shownProgress] ++
        s.kept.staged.reasonBytes ++ s.verificationBytes ++
        [byteOf s.kept.selector.tries, s.kept.selector.active.code] ++ le16 s.port.violations) t) ∧
    (∃ t, exec (.scanStatus identity []) s = .next t ∧
      Replies s identity .ok (s.scanTimerBytes ++ roundBytes s.gate.scanRound ++ s.gate.scanRecord.bytes ++
        [s.gate.verdict.code, byteOf s.gate.verdict.index, bankCode s.gate.selected, yesNo s.gate.trialBooted]) t) ∧
    (∃ t, exec (.presenceStatus identity []) s = .next t ∧
      Replies s identity .ok
        [yesNo s.biu.window.isSome, byteOf s.windowSeconds, s.biu.button.code, byteOf s.heldSeconds,
          shownCode s.biu.shown] t)) ∧
  (∀ (s : State) (identity : Byte), s.Hears identity [] →
    ∃ t, exec (.readCounters identity []) s = .next t ∧
      Replies s identity .ok
        (le16 (s.kept.counter 0) ++ le16 (s.kept.counter 1) ++ le16 (s.kept.counter 2) ++ le16 (s.kept.counter 3) ++
          [s.kept.selector.active.code] ++
          ([yesNo s.kept.goldenA.valid] ++ le16 s.kept.goldenA.epoch ++ le32 s.kept.goldenA.build ++
            [byteOf s.kept.goldenA.regions.length]) ++
          ([yesNo s.kept.goldenB.valid] ++ le16 s.kept.goldenB.epoch ++ le32 s.kept.goldenB.build ++
            [byteOf s.kept.goldenB.regions.length]) ++
          (match s.kept.layout with
            | some l => [1] ++ le32 l.bankSize ++ le32 l.recoverySize
            | none => List.replicate 9 0)) t) ∧
  (∀ (s : State) (identity : Byte), s.Hears identity [] →
    ∃ t, exec (.requesterRead identity []) s = .next t ∧
      Replies s identity .ok
        (s.kept.requesters.toList.flatMap (fun r => [yesNo r.enabled, byteOf r.ceiling.number, r.rights]) ++
          [byteOf s.ism.stage.number, s.admittedSet]) t) ∧
  (∀ (s : State) (identity : Byte), s.Hears identity [] → s.vault.free = true →
    ∃ t, exec (.vaultStatus identity []) s = .next t ∧
      Replies s identity .ok
        ([yesNo s.kept.vault.claimed] ++ le32 s.kept.vault.ownerTag.toNat ++
          [byteOf s.kept.vault.free, byteOf s.kept.vault.base] ++ le32 s.kept.vault.cap ++
          [byteOf s.kept.vault.forgive, yesNo s.biu.window.isSome, byteOf s.kept.presentCreds.length] ++
          s.kept.presentCreds.flatMap fun (i, c) => s.credBytes i c) t)

/-- REACTION READ carries each entry 0..7 in order with its mark and its count, and changes nothing (R164). -/
def Obligations.ReactionReadShowsEveryEntry : Prop :=
  ∀ (s : State) (identity : Byte), s.Hears identity [] →
    ∃ t bytes, exec (.reactionRead identity []) s = .next t ∧ Replies s identity .ok bytes t ∧ bytes.length = 80 ∧
      ∀ (i : Nat) e mark n, s.kept.reactions[i]? = some e → s.reactions.fired[i]? = some mark →
        s.reactions.counts[i]? = some n →
        slice (10 * i) 10 bytes =
          [byteOf i, yesNo e.enabled, e.condition.code, e.action.code, byteOf (e.threshold.getD 0), e.action.patternByte,
            e.action.identitySet, yesNo e.once, yesNo mark, byteOf n]

/-- READ ATTENTION answers with the flags, the mask, the level of ALERT, the bad-frame run as the accepted frame leaves
it and the overrun counter (R177, R170). CLEAR ATTENTION clears the flags named and no other; SET ALERT MASK replaces
the mask and leaves the flags; with both, ALERT follows in the same event, a payload of another length or with a high
bit set is refused, and nothing else changes (R177, R178). The mask is full at power-on and stands through a start of
measurement (R178). -/
def Obligations.AttentionRequestsReadClearAndMask : Prop :=
  (∀ (s : State) (identity : Byte), s.Hears identity [] →
    ∃ t, exec (.readAttention identity []) s = .next t ∧
      Replies s identity .ok
        (le16 s.link.flags.toNat ++ le16 s.link.mask.toNat ++
          [yesNo s.alertLevel, byteOf t.link.badRun, byteOf s.link.overruns]) t) ∧
  (∀ (s : State) (identity : Byte) (mask : BitVec 12), s.Hears identity (le16 mask.toNat) →
    ∃ t, exec (.clearAttention identity (le16 mask.toNat)) s = .next t ∧
      t.Answers identity .ok (le16 (s.link.flags &&& ~~~mask).toNat) ∧
      t.link.flags = s.link.flags &&& ~~~mask ∧
      t.pins.alert = (s.link.flags &&& ~~~mask &&& s.link.mask != 0) ∧
      RequestFrame s t ∧ t.gate = s.admittedGate ∧ t.ism = s.ism ∧ t.engine = s.engine ∧ t.store = s.store ∧
      t.biu = s.biu ∧ t.link.mask = s.link.mask) ∧
  (∀ (s : State) (identity : Byte) (payload : Bytes), s.Hears identity payload →
    payload.length ≠ 2 ∨ 4096 ≤ number payload →
    ∃ t, exec (.clearAttention identity payload) s = .next t ∧ Replies s identity .badArgument [] t) ∧
  (∀ (s : State) (identity : Byte) (mask : BitVec 12), s.Hears identity (le16 mask.toNat) →
    ∃ t, exec (.setAlertMask identity (le16 mask.toNat)) s = .next t ∧
      t.Answers identity .ok (le16 mask.toNat) ∧ t.link.mask = mask ∧ t.link.flags = s.link.flags ∧
      t.pins.alert = (s.link.flags &&& mask != 0) ∧ (mask = 0 → t.pins.alert = false) ∧
      RequestFrame s t ∧ t.gate = s.admittedGate ∧ t.ism = s.ism ∧ t.engine = s.engine ∧ t.store = s.store ∧
      t.biu = s.biu) ∧
  (∀ (s : State) (identity : Byte) (payload : Bytes), s.Hears identity payload →
    payload.length ≠ 2 ∨ 4096 ≤ number payload →
    ∃ t, exec (.setAlertMask identity payload) s = .next t ∧ Replies s identity .badArgument [] t) ∧
  (∀ (landed : Bool) (s t : State), exec (.powerOn landed) s = .next t → t.link.mask = 0xFFF) ∧
  (∀ (shortPress : Bool) (s : State), (startOfMeasurement shortPress s).link.mask = s.link.mask)

/-! ## Parameters (R84, R138, R180) -/

/-- A parameter is set with the value clamped to its range, or for SILENCE_LIMIT to the next of its choices, in one
store write, by the right that the parameter needs, and the reply after the write carries the value taken; the write
puts that value under its name and leaves every other parameter and record. A completed SET PARAMETER of SCAN_PERIOD
above 0 starts a stopped scan timer in RUNNING with a booted set present, its first expiry one period later, and leaves
every other timer (R86). READ PARAMETER carries the value held (R84, R138, R180). -/
def Obligations.ParametersAreClampedWrittenAndRead : Prop :=
  (∀ (r : Records) (p : Param) (v : Nat),
    (r.apply (p.write (p.taken v))).param p = p.taken v ∧
    (∀ q, q ≠ p → (r.apply (p.write (p.taken v))).param q = r.param q) ∧
    r.apply (p.write (p.taken v)) = { r with
      params := (r.apply (p.write (p.taken v))).params, vault := (r.apply (p.write (p.taken v))).vault } ∧
    (r.apply (p.write (p.taken v))).vault.claimed = r.vault.claimed ∧
    (r.apply (p.write (p.taken v))).vault.ownerTag = r.vault.ownerTag) ∧
  (∀ (s : State) (v : Nat) (payload : Bytes), s.powered = true → s.gate.selection = .idle →
    s.store.making = some ⟨.bootParam .scanPeriod v, .reply payload⟩ →
    ∃ t, exec .storeWriteComplete s = .next t ∧ t.kept.params.scanPeriod = v ∧
      t.gate = (if s.gate.state = .running ∧ s.gate.scanTimer = none ∧ s.gate.booted.isSome = true ∧ 0 < v then
        { s.gate with scanTimer := some ⟨v, s.uptime + 60000 * v⟩ } else s.gate) ∧
      t.Answers s.asker .ok payload) ∧
  (∀ (s : State) (identity code b0 b1 b2 b3 : Byte) (p : Param), s.Hears identity [code, b0, b1, b2, b3] →
    Param.ofCode code = some p → s.hasRight identity.toNat p.right = true → (∀ v, p = .vault v → s.vault.free = true) →
    ∃ t, exec (.setParameter identity [code, b0, b1, b2, b3]) s = .next t ∧
      Hands s .setParameter identity [code, b0, b1, b2, b3] (p.write (p.taken (number [b0, b1, b2, b3])))
        (.reply (code :: le32 (p.taken (number [b0, b1, b2, b3])))) s.biu t) ∧
  (∀ (s : State) (identity code : Byte) (p : Param), s.Hears identity [code] → Param.ofCode code = some p →
    (∀ v, p = .vault v → s.vault.free = true) →
    ∃ t, exec (.readParameter identity [code]) s = .next t ∧
      Replies s identity .ok (code :: le32 (s.kept.param p)) t) ∧
  (∀ v, (Param.boot .attachLimit).taken v = max 1 (min 60 v) ∧ (Param.boot .completeLimit).taken v = max 10 (min 900 v) ∧
    (Param.boot .scanPeriod).taken v = min 1440 v ∧ (Param.boot .bootPolicy).taken v = min 1 v ∧
    (Param.vault .free).taken v = max 1 (min 8 v) ∧ (Param.vault .base).taken v = max 1 (min 60 v) ∧
    (Param.vault .cap).taken v = max 60 (min 86400 v) ∧ (Param.vault .forgive).taken v = max 1 (min 168 v)) ∧
  (∀ v, (Param.boot .silenceLimit).taken v ∈ [0, 8, 16, 32, 64, 128, 256, 512] ∧
    (v = 0 ↔ (Param.boot .silenceLimit).taken v = 0) ∧ (v ≤ 512 → v ≤ (Param.boot .silenceLimit).taken v) ∧
    (∀ c ∈ [0, 8, 16, 32, 64, 128, 256, 512], v ≤ c → (Param.boot .silenceLimit).taken v ≤ c) ∧
    (512 < v → (Param.boot .silenceLimit).taken v = 512))

/-! ## Key slots (chapter 1) -/

/-- The requests that read a slot, none of which changes anything. KEY EXPORT PUBLIC returns the 64 bytes of a pair's or
a public slot's key to a requester of the answer set, ACTIVE or RETIRED, suspended or not; it refuses a number above 23,
an EMPTY slot, another kind and another requester, each by its status (R12). KEY INFO shows a slot's fields without its
material and refuses a number above 23 with BAD_ARGUMENT, and BLOB READ returns at most `count` bytes from an offset of
a readable blob, with its whole length (R11, R13). KEY EXPORT PUBLIC and BLOB READ answer the first check of their row
of R10 that fails, in its order: the number, SLOT_EMPTY, the kind, the usage, the answer set, the binding; and BLOB READ
refuses an offset above the length after them (R10, R12, R13). A payload of another length is BAD_ARGUMENT (R171). -/
def Obligations.SlotsAreRead : Prop :=
  (∀ (s : State) (identity i : Byte), s.Hears identity [i] →
    (23 < i.toNat → ∃ t, exec (.keyExportPublic identity [i]) s = .next t ∧ Replies s identity .badArgument [] t) ∧
    (i.toNat ≤ 23 → s.kept.slot i.toNat = none →
      ∃ t, exec (.keyExportPublic identity [i]) s = .next t ∧ Replies s identity .slotEmpty [] t) ∧
    (∀ k, i.toNat ≤ 23 → s.kept.slot i.toNat = some k → k.material.publicKey = none →
      ∃ t, exec (.keyExportPublic identity [i]) s = .next t ∧ Replies s identity .badArgument [] t) ∧
    (∀ k key, i.toNat ≤ 23 → s.kept.slot i.toNat = some k → k.material.publicKey = some key →
      ∃ t, exec (.keyExportPublic identity [i]) s = .next t ∧
        if inSet k.answerSet identity.toNat = true then Replies s identity .ok key t
        else Replies s identity .notPermitted [] t)) ∧
  (∀ (s : State) (identity i : Byte), s.Hears identity [i] →
    ∃ t, exec (.keyInfo identity [i]) s = .next t ∧
      if i.toNat ≤ 23 then Replies s identity .ok (s.slotInfo i.toNat) t else Replies s identity .badArgument [] t) ∧
  (∀ (s : State) (identity : Byte) (payload : Bytes) (c : Instr), s.Hears identity payload →
    (c ∈ [.keyExportPublic identity payload, .keyInfo identity payload] ∧ payload.length ≠ 1) ∨
      (c = .blobRead identity payload ∧ payload.length ≠ 5) →
    ∃ t, exec c s = .next t ∧ Replies s identity .badArgument [] t) ∧
  (∀ (s : State) (identity i : Byte) (status : Status), s.Hears identity [i] →
    s.slotFailure i.toNat identity.toNat exportRow = some status →
    ∃ t, exec (.keyExportPublic identity [i]) s = .next t ∧ Replies s identity status [] t) ∧
  (∀ (s : State) (identity i : Byte) (offset count : Nat), offset < 65536 → count < 65536 →
    s.Hears identity (i :: (le16 offset ++ le16 count)) →
    (∀ status, s.slotFailure i.toNat identity.toNat blobRow = some status →
      ∃ t, exec (.blobRead identity (i :: (le16 offset ++ le16 count))) s = .next t ∧ Replies s identity status [] t) ∧
    (∀ k data, s.slotFailure i.toNat identity.toNat blobRow = none → s.kept.slot i.toNat = some k → k.material = .blob data →
      data.length < offset →
      ∃ t, exec (.blobRead identity (i :: (le16 offset ++ le16 count))) s = .next t ∧
        Replies s identity .badArgument [] t)) ∧
  (∀ (s : State) (identity i : Byte) (offset count : Nat) (k : KeySlot) (data : Bytes), offset < 65536 → count < 65536 →
    s.Hears identity (i :: (le16 offset ++ le16 count)) → i.toNat ≤ 23 → s.kept.slot i.toNat = some k →
    k.material = .blob data → inSet k.usage useReadBlob = true → inSet k.answerSet identity.toNat = true →
    s.ism.bindingMatches k.binding = true → offset ≤ data.length →
    ∃ t, exec (.blobRead identity (i :: (le16 offset ++ le16 count))) s = .next t ∧
      Replies s identity .ok (le16 data.length ++ (data.drop offset).take (min count 1024)) t)

/-- The creating requests that pass R17 begin to make key material (KEY GENERATE), or hand the new ACTIVE slot with use
count 0 to the store: KEY IMPORT of a public key on the curve, or of a wrapped key that unwraps to a key of its kind
under a slot that passes R10, with the count of that slot to follow; and the first chunk of BLOB WRITE. A public key off
the curve and a wrapped key that does not unwrap are refused, and so is the write of KEY IMPORT and BLOB WRITE for a
slot of class OWNER while the vault is UNCLAIMED; KEY GENERATE meets that check when its material has been made (R17,
R18, R19, R20). The first of the checks 1 to 5 of R17 that fails gives the reply and nothing changes (a slot 0..3 before
the class: log entry 61, the model's): number, slots 0..3, class, right, policy, SLOT_OCCUPIED, LABEL_TAKEN. After them
a kind that the request does not create (for BLOB WRITE log entry 62, the model's), a chunk or a wrapped key of no
fitting length, and the first check of R10 on the unwrapping slot that fails, SLOT_SUSPENDED and BINDING_MISMATCH among
them, refuse it (R10, R18, R19, R20). That KEY IMPORT's reply is to carry the state ACTIVE whatever follows is log entry
37, the model's. -/
def Obligations.CreatingRequestsCreateTheSlot : Prop :=
  (∀ (s : State) (identity : Byte) (payload : Bytes) (i : Nat) (p : Policy) (c : SlotClass), s.Hears identity payload →
    readSlotPolicy payload = some (i, p) → s.Creatable i identity.toNat p c →
    KeyKind.ofCode p.kindCode = some .signingPair ∨ KeyKind.ofCode p.kindCode = some .secret →
    ∃ t, exec (.keyGenerate identity payload) s = .next t ∧ Quiet s t ∧ t.store = s.store ∧ t.biu = s.biu ∧
      t.Serves .keyGenerate identity payload ∧ t.link.service = .generating i p false) ∧
  (∀ (s : State) (identity : Byte) (payload key : Bytes) (i : Nat) (p : Policy) (c : SlotClass), s.Hears identity payload →
    readImport payload = some (i, p, 0, key) → s.Creatable i identity.toNat p c →
    KeyKind.ofCode p.kindCode = some .verifyPublic → s.resetBegun = false →
    ∃ t, exec (.keyImport identity payload) s = .next t ∧
      if Config.pointOnCurve key = false then Replies s identity .badArgument [] t
      else if c = .owner ∧ s.kept.vault.claimed = false then Replies s identity .wrongState [] t
      else Hands s .keyImport identity payload (.slotPut i (p.newSlot c (.verifyPublic key) s.ism))
        (.reply (slotStateCode (some .active) :: key)) s.biu t) ∧
  (∀ (s : State) (identity i : Byte) (rest chunk : Bytes) (p : Policy) (c : SlotClass),
    s.Hears identity (i :: 0 :: 0 :: rest) → takePolicy rest = some (p, chunk) → s.Creatable i.toNat identity.toNat p c →
    KeyKind.ofCode p.kindCode = some .blob → 1 ≤ chunk.length → chunk.length ≤ 512 →
    s.resetBegun = false →
    ∃ t, exec (.blobWrite identity (i :: 0 :: 0 :: rest)) s = .next t ∧
      if c = .owner ∧ s.kept.vault.claimed = false then Replies s identity .wrongState [] t
      else Hands s .blobWrite identity (i :: 0 :: 0 :: rest) (.slotPut i.toNat (p.newSlot c (.blob chunk) s.ism))
        (.replyBlob i.toNat false) s.biu t) ∧
  (∀ (s : State) (identity : Byte) (payload wrapped secret : Bytes) (i u : Nat) (p : Policy) (c : SlotClass) (kind : KeyKind)
    (k : KeySlot), s.Hears identity payload → readImport payload = some (i, p, u, wrapped) →
    s.Creatable i identity.toNat p c → KeyKind.ofCode p.kindCode = some kind → kind = .signingPair ∨ kind = .secret →
    s.Usable u identity.toNat .secret useUnwrap k → k.material = .secret (some secret) →
    1 ≤ wrapped.length → wrapped.length ≤ 256 → s.resetBegun = false →
    ∃ t, exec (.keyImport identity payload) s = .next t ∧
      match (Config.unwrapKey secret wrapped).bind (importedMaterial kind) with
      | some m =>
        if c = .owner ∧ s.kept.vault.claimed = false then Replies s identity .wrongState [] t
        else Hands s .keyImport identity payload (.slotPut i (p.newSlot c m s.ism))
          (.countUnwrap (s.kept.slotPlace u) (slotStateCode (some .active) :: m.publicBytes)) s.biu t
      | none => Replies s identity .badArgument [] t) ∧
  (∀ (s : State) (identity : Byte) (payload : Bytes) (i : Nat) (p : Policy) (c : Instr), s.Hears identity payload →
    s.hasRight identity.toNat rightAdmin = true ∨ s.hasRight identity.toNat rightOwner = true →
    (c = .keyGenerate identity payload ∧ readSlotPolicy payload = some (i, p)) ∨
      (∃ u key, c = .keyImport identity payload ∧ readImport payload = some (i, p, u, key)) ∨
      (∃ (slot : Byte) (rest chunk : Bytes), c = .blobWrite identity payload ∧ payload = slot :: 0 :: 0 :: rest ∧
        slot.toNat = i ∧ takePolicy rest = some (p, chunk)) →
    ∀ status, s.createFailure i identity.toNat p = some status →
      ∃ t, exec c s = .next t ∧ Replies s identity status [] t) ∧
  (∀ (s : State) (identity : Byte) (payload : Bytes) (i : Nat) (p : Policy) (class_ : SlotClass) (c : Instr),
    s.Hears identity payload → s.Creatable i identity.toNat p class_ →
    (c = .keyGenerate identity payload ∧ readSlotPolicy payload = some (i, p) ∧
        KeyKind.ofCode p.kindCode ≠ some .signingPair ∧ KeyKind.ofCode p.kindCode ≠ some .secret) ∨
      (∃ u key, c = .keyImport identity payload ∧ readImport payload = some (i, p, u, key) ∧
        KeyKind.ofCode p.kindCode = some .blob) ∨
      (∃ (slot : Byte) (rest chunk : Bytes), c = .blobWrite identity payload ∧ payload = slot :: 0 :: 0 :: rest ∧
        slot.toNat = i ∧ takePolicy rest = some (p, chunk) ∧
        (KeyKind.ofCode p.kindCode ≠ some .blob ∨ chunk = [] ∨ 512 < chunk.length)) →
    ∃ t, exec c s = .next t ∧ Replies s identity .badArgument [] t) ∧
  (∀ (s : State) (identity : Byte) (payload wrapped : Bytes) (i u : Nat) (p : Policy) (c : SlotClass),
    s.Hears identity payload → readImport payload = some (i, p, u, wrapped) → s.Creatable i identity.toNat p c →
    KeyKind.ofCode p.kindCode = some .signingPair ∨ KeyKind.ofCode p.kindCode = some .secret →
    (∀ status, s.slotFailure u identity.toNat unwrapRow = some status →
      ∃ t, exec (.keyImport identity payload) s = .next t ∧ Replies s identity status [] t) ∧
    (s.slotFailure u identity.toNat unwrapRow = none → wrapped = [] ∨ 256 < wrapped.length →
      ∃ t, exec (.keyImport identity payload) s = .next t ∧ Replies s identity .badArgument [] t))

/-- A later chunk of BLOB WRITE at the blob's length is appended (R20); KEY RESTRICT narrows an ACTIVE slot's policy
(R21); KEY RETIRE and KEY ERASE write their slot (R22): each in one store write by a requester with the right of the
slot's class. KEY RESTRICT, KEY RETIRE and KEY ERASE answer the first check on the slot that fails: the number,
SLOT_EMPTY, slots 0..3 and the right (R21, R22; on an EMPTY slot 0..3 log entry 47, the model's). A KEY RESTRICT of a
RETIRED slot is WRONG_STATE, and one that adds a usage or an identity, empties a set, adds a second binding, raises the
limit or carries an ill-formed binding is BAD_ARGUMENT, and nothing changes; and no command ever widens a slot's policy
(R21). A later chunk that fails a check of R20 gets its status, in the order of R20 (log entry 59, the model's).
Retirement discards a private key or a secret and keeps the rest, and an erased slot is EMPTY; either takes the slot's
suspension, and no other slot or record changes (R5, R7, R22). A slot that has become EMPTY since the request was
checked, be it created anew, is left as it is (log entry 53, the model's). -/
def Obligations.ManagingRequestsWriteTheirSlot : Prop :=
  (∀ (r : Records) (p : Place) (k : KeySlot), r.slotAt p = some k →
    (r.apply (.slotRetire p)).slot p.index = some { k with
      state := .retired
      material := match k.material with
        | .pair _ publicKey => .pair none publicKey
        | .secret _ => .secret none
        | .verifyPublic publicKey => .verifyPublic publicKey
        | .blob data => .blob data } ∧
    r.apply (.slotRetire p) = { r with slots := (r.apply (.slotRetire p)).slots } ∧
    (r.apply (.slotErase p)).slot p.index = none ∧
    r.apply (.slotErase p) = { r with
      slots := (r.apply (.slotErase p)).slots, slotLives := (r.apply (.slotErase p)).slotLives } ∧
    (∀ j, j ≠ p.index →
      (r.apply (.slotRetire p)).slot j = r.slot j ∧ (r.apply (.slotErase p)).slot j = r.slot j)) ∧
  (∀ (r : Records) (p : Place), r.slotAt p = none → r.apply (.slotRetire p) = r ∧ r.apply (.slotErase p) = r) ∧
  (∀ (s : State) (p : Place) (op : StoreOp) (payload : Bytes), s.powered = true → s.gate.selection = .idle →
    op = .slotRetire p ∨ op = .slotErase p → s.store.making = some ⟨op, .reply payload⟩ → s.kept.slotAt p ≠ none →
    ∃ t, exec .storeWriteComplete s = .next t ∧ t.kept = s.kept.apply op ∧ t.suspended p.index = false ∧
      t.Answers s.asker .ok payload) ∧
  (∀ (c : Instr) (s t : State) (i : Nat) (k l : KeySlot), exec c s = .next t → s.kept.slot i = some k →
    t.kept.slot i = some l → k.Narrower l) ∧
  (∀ (s : State) (identity : Byte) (payload : Bytes) (usage answers chains : Byte) (i limit form : Nat) (bound : Bytes),
    s.Hears identity payload → s.hasRight identity.toNat rightAdmin = true ∨ s.hasRight identity.toNat rightOwner = true →
    readRestrict payload = some (i, usage, answers, limit, form, chains, bound) →
    (∀ status, s.manageFailure i identity.toNat = some status →
      ∃ t, exec (.keyRestrict identity payload) s = .next t ∧ Replies s identity status [] t) ∧
    (∀ k, s.manageFailure i identity.toNat = none → s.kept.slot i = some k →
      (k.state = .retired →
        ∃ t, exec (.keyRestrict identity payload) s = .next t ∧ Replies s identity .wrongState [] t) ∧
      (k.state = .active →
        usage = 0 ∨ (∃ u < 8, inSet usage u = true ∧ inSet k.usage u = false) ∨
          answers = 0 ∨ (∃ other < 8, inSet answers other = true ∧ inSet k.answerSet other = false) ∨
          bindingFits form chains = false ∨ (form ≠ 0 ∧ k.binding ≠ none) ∨
          (∃ held, k.useLimit = some held ∧ held < limit) →
        ∃ t, exec (.keyRestrict identity payload) s = .next t ∧ Replies s identity .badArgument [] t))) ∧
  (∀ (s : State) (identity i : Byte) (c : Instr) (status : Status), s.Hears identity [i] →
    s.hasRight identity.toNat rightAdmin = true ∨ s.hasRight identity.toNat rightOwner = true →
    c ∈ [.keyRetire identity [i], .keyErase identity [i]] → s.manageFailure i.toNat identity.toNat = some status →
    ∃ t, exec c s = .next t ∧ Replies s identity status [] t) ∧
  (∀ (s : State) (identity i : Byte) (offset : Nat) (chunk : Bytes) (status : Status), 0 < offset → offset < 65536 →
    s.Hears identity (i :: (le16 offset ++ chunk)) →
    s.hasRight identity.toNat rightAdmin = true ∨ s.hasRight identity.toNat rightOwner = true →
    (if chunk = [] ∨ 512 < chunk.length then status = .badArgument
      else s.appendFailure i.toNat identity.toNat offset chunk = some status) →
    ∃ t, exec (.blobWrite identity (i :: (le16 offset ++ chunk))) s = .next t ∧ Replies s identity status [] t) ∧
  ∀ (s : State) (identity i : Byte) (k : KeySlot), s.Managed i.toNat identity.toNat k →
    (∀ (chunk data : Bytes), s.Hears identity (i :: (le16 data.length ++ chunk)) → k.material = .blob data →
      k.state = .active → 0 < data.length → 1 ≤ chunk.length → chunk.length ≤ 512 → data.length + chunk.length ≤ 1024 →
      ∃ t, exec (.blobWrite identity (i :: (le16 data.length ++ chunk))) s = .next t ∧
        Hands s .blobWrite identity (i :: (le16 data.length ++ chunk)) (.slotAppend (s.kept.slotPlace i.toNat) data.length chunk)
          (.replyBlob i.toNat false) s.biu t) ∧
    (∀ (payload : Bytes) (usage answers chains : Byte) (limit form : Nat) (bound : Bytes), s.Hears identity payload →
      readRestrict payload = some (i.toNat, usage, answers, limit, form, chains, bound) → k.state = .active →
      usage ≠ 0 → subset usage k.usage = true → answers ≠ 0 → subset answers k.answerSet = true →
      bindingFits form chains = true → form = 0 ∨ k.binding = none → (∀ held, k.useLimit = some held → limit ≤ held) →
      ∃ t, exec (.keyRestrict identity payload) s = .next t ∧
        Hands s .keyRestrict identity payload
          (.slotRestrict (s.kept.slotPlace i.toNat) usage answers (givenLimit limit) (givenBinding form chains bound s.ism))
          (.replyKeyInfo i.toNat) s.biu t) ∧
    (s.Hears identity [i] → k.state = .active →
      ∃ t, exec (.keyRetire identity [i]) s = .next t ∧
        Hands s .keyRetire identity [i] (.slotRetire (s.kept.slotPlace i.toNat)) (.reply [slotStateCode (some .retired)]) s.biu t) ∧
    (s.Hears identity [i] → k.state = .retired →
      ∃ t, exec (.keyRetire identity [i]) s = .next t ∧
        Replies s identity .ok [slotStateCode (some .retired)] t) ∧
    (s.Hears identity [i] →
      ∃ t, exec (.keyErase identity [i]) s = .next t ∧
        Hands s .keyErase identity [i] (.slotErase (s.kept.slotPlace i.toNat)) (.reply []) s.biu t)

/-- The uses of a slot that passes R10: KEY SIGN places a SIGN operation for 32 carried bytes, or digests 1..1000 bytes
of data first; KEY DERIVE digests its context under the slot's secret; MAKE STATEMENT takes the statement body in this
event and digests it (R14, R16, R115, R118). Each answers the first of the eight checks of R10 that fails and changes
nothing: BAD_ARGUMENT, SLOT_EMPTY, BAD_ARGUMENT of the kind, WRONG_STATE, NOT_PERMITTED of the usage and of the answer
set, SLOT_SUSPENDED of a suspended slot (R7), BINDING_MISMATCH of a binding that does not equal the digest of its chains
(R8, R10); then a digest that is not 32 bytes, data or a context outside 1..1000 bytes and a nonce outside 8..32 bytes
are BAD_ARGUMENT (R14, R16, R114). -/
def Obligations.KeyUsesBeginTheirWork : Prop :=
  (∀ (m : Ism) (binding : Option Binding), m.bindingMatches binding = true ↔
    ∀ b, binding = some b → b.bound = sha256 (((List.range 8).filter (inSet b.chains)).flatMap m.chain)) ∧
  (∀ (s : State) (identity i : Byte) (rest : Bytes) (c : Instr) (row : SlotRow) (status : Status),
    s.Hears identity (i :: rest) →
    (c = .keySign identity (i :: rest) ∧ row = signRow ∧ (rest.head? = some 0 ∨ rest.head? = some 1)) ∨
      (c = .keyDerive identity (i :: rest) ∧ row = deriveRow) ∨
      (c = .makeStatement identity (i :: rest) ∧ row = statementRow ∧ 2 ≤ rest.length) →
    s.slotFailure i.toNat identity.toNat row = some status →
    ∃ t, exec c s = .next t ∧ Replies s identity status [] t) ∧
  (∀ (s : State) (identity i : Byte) (rest : Bytes) (c : Instr), s.Hears identity (i :: rest) →
    (∃ matter, c = .keySign identity (i :: rest) ∧ s.slotFailure i.toNat identity.toNat signRow = none ∧
        ((rest = 0 :: matter ∧ matter.length ≠ 32) ∨ (rest = 1 :: matter ∧ (matter = [] ∨ 1000 < matter.length)))) ∨
      (c = .keyDerive identity (i :: rest) ∧ s.slotFailure i.toNat identity.toNat deriveRow = none ∧
        (rest = [] ∨ 1000 < rest.length)) ∨
      (∃ chains n nonce, c = .makeStatement identity (i :: rest) ∧ s.slotFailure i.toNat identity.toNat statementRow = none ∧
        rest = chains :: n :: nonce ∧ (n.toNat < 8 ∨ 32 < n.toNat ∨ nonce.length ≠ n.toNat)) →
    ∃ t, exec c s = .next t ∧ Replies s identity .badArgument [] t) ∧
  ∀ (s : State) (identity i : Byte) (k : KeySlot),
    (∀ (key pub digest : Bytes), s.Usable i.toNat identity.toNat .signingPair useSign k → k.material = .pair (some key) pub →
      digest.length = 32 → s.Hears identity (i :: 0 :: digest) →
      ∃ t, exec (.keySign identity (i :: 0 :: digest)) s = .next t ∧ RequestFrame s t ∧ t.gate = s.admittedGate ∧
        t.ism = s.ism ∧ t.store = s.store ∧ t.biu = s.biu ∧ t.Serves .keySign identity (i :: 0 :: digest) ∧
        t.engine = s.engine ++ [.sign i.toNat key digest] ∧ t.link.service = .signEngine (s.kept.slotPlace i.toNat)) ∧
    (∀ data : Bytes, s.Usable i.toNat identity.toNat .signingPair useSign k → 1 ≤ data.length → data.length ≤ 1000 →
      s.Hears identity (i :: 1 :: data) →
      ∃ t, exec (.keySign identity (i :: 1 :: data)) s = .next t ∧
        Digests s .keySign identity (i :: 1 :: data) none data (.signDigest (s.kept.slotPlace i.toNat)) s.biu t) ∧
    (∀ (secret context : Bytes), s.Usable i.toNat identity.toNat .secret useDerive k → k.material = .secret (some secret) →
      1 ≤ context.length → context.length ≤ 1000 → s.Hears identity (i :: context) →
      ∃ t, exec (.keyDerive identity (i :: context)) s = .next t ∧
        Digests s .keyDerive identity (i :: context) (some secret) context (.deriveDigest (s.kept.slotPlace i.toNat)) s.biu t) ∧
    (∀ (chains n : Byte) (nonce : Bytes), s.Usable i.toNat identity.toNat .signingPair useStatement k →
      8 ≤ nonce.length → nonce.length ≤ 32 → n.toNat = nonce.length → s.Hears identity (i :: chains :: n :: nonce) →
      ∃ t, exec (.makeStatement identity (i :: chains :: n :: nonce)) s = .next t ∧
        Digests s .makeStatement identity (i :: chains :: n :: nonce) none (t.statementBody chains nonce)
          (.statementDigest (s.kept.slotPlace i.toNat) (t.statementBody chains nonce)) s.biu t)

/-! ## Stages and measurement (chapter 2) -/

/-- EXTEND DIGEST on an open chain appends one REQUEST entry with the next sequence number and extends the chain by the
digest carried, in one event; the chains of the part, a chain beyond its window and a log of 36 entries are refused with
no entry and no extension (R33, R35, R36, R37). EXTEND DATA on an open chain digests its data in the LINK context first,
and has neither entry nor extension yet (R38). -/
def Obligations.ExtensionsAppendAndExtendTogether : Prop :=
  (∀ (s : State) (identity chain n : Byte) (tag digest : Bytes), chain.toNat ≤ 7 → tag.length ≤ 8 → n.toNat = tag.length →
    digest.length = 32 → s.Hears identity (chain :: n :: (tag ++ digest)) →
    ∃ t, exec (.extendDigest identity (chain :: n :: (tag ++ digest))) s = .next t ∧
      if chain.toNat < 2 then Replies s identity .chainReserved [] t
      else if min (chain.toNat - 2) 3 < s.ism.stage.number then Replies s identity .stageClosed [] t
      else if 36 ≤ s.ism.log.length then Replies s identity .logFull [] t
      else
        t.ism.log = s.ism.log ++ [⟨s.ism.log.length, chain.toNat, .request, digest, s.ism.stage, some identity.toNat, tag⟩] ∧
        t.ism.chain chain.toNat = sha256 (s.ism.chain chain.toNat ++ digest) ∧
        (∀ c, c ≠ chain.toNat → t.ism.chain c = s.ism.chain c) ∧ t.ism.stage = s.ism.stage ∧
        t.Answers identity .ok
          (byteOf s.ism.log.length :: (t.ism.chain chain.toNat ++ [byteOf (s.ism.log.length + 1)])) ∧
        RequestFrame s t ∧ t.gate = s.admittedGate ∧ t.engine = s.engine ∧ t.store = s.store ∧ t.biu = s.biu ∧
        t.link.flags = s.link.flags ∧ t.link.mask = s.link.mask) ∧
  (∀ (s : State) (identity chain n : Byte) (tag data : Bytes), 2 ≤ chain.toNat → chain.toNat ≤ 7 → tag.length ≤ 8 →
    n.toNat = tag.length → data ≠ [] → s.Hears identity (chain :: n :: (tag ++ data)) →
    s.ism.stage.number ≤ min (chain.toNat - 2) 3 → s.ism.log.length < 36 →
    ∃ t, exec (.extendData identity (chain :: n :: (tag ++ data))) s = .next t ∧
      Digests s .extendData identity (chain :: n :: (tag ++ data)) none data (.extendDigest chain.toNat tag) s.biu t)

/-- READ CHAINS carries the stage, the number of entries and the values of the chains named, in ascending order; READ
LOG carries at most 20 entries from a start that is not beyond the end. An empty set and a start beyond the end are
refused with BAD_ARGUMENT, and none of this changes anything (R40, R41). -/
def Obligations.ReadChainsAndLogAnswer : Prop :=
  (∀ (s : State) (identity set : Byte), s.Hears identity [set] → set ≠ 0 →
    ∃ t, exec (.readChains identity [set]) s = .next t ∧
      Replies s identity .ok ([byteOf s.ism.stage.number, byteOf s.ism.log.length, set] ++
        ((List.range 8).filter fun c => set.getLsbD c).flatMap s.ism.chain) t) ∧
  (∀ (s : State) (identity start count : Byte), s.Hears identity [start, count] → start.toNat ≤ s.ism.log.length →
    ∃ t entries, exec (.readLog identity [start, count]) s = .next t ∧
      entries = (s.ism.log.drop start.toNat).take (min count.toNat 20) ∧
      Replies s identity .ok
        ([byteOf s.ism.log.length, byteOf entries.length] ++ entries.flatMap LogEntry.bytes) t) ∧
  (∀ (s : State) (identity : Byte), s.Hears identity [0] →
    ∃ t, exec (.readChains identity [0]) s = .next t ∧ Replies s identity .badArgument [] t) ∧
  (∀ (s : State) (identity start count : Byte), s.Hears identity [start, count] → s.ism.log.length < start.toNat →
    ∃ t, exec (.readLog identity [start, count]) s = .next t ∧ Replies s identity .badArgument [] t)

/-- ADVANCE STAGE to a later stage raises the stage and appends the stage mark, which extends chain 1; to SYSTEM or
SERVICES in ATTACHED it takes the Boot Gate to RUNNING with no failure counted and the boot-complete deadline stopped;
an earlier or equal stage is refused (R30, R31, R77, R78). -/
def Obligations.AdvanceStageRaisesTheStage : Prop :=
  ∀ (s : State) (identity b : Byte) (target : Stage), s.Hears identity [b] → Stage.ofNumber b.toNat = some target →
    ∃ t, exec (.advanceStage identity [b]) s = .next t ∧
      if target.number ≤ s.ism.stage.number then Replies s identity .wrongState [] t
      else
        t.ism.stage = target ∧
        (∃ e, t.ism.log = s.ism.log ++ [e] ∧ e.sequence = s.ism.log.length ∧ e.chain = 1 ∧ e.kind = .stageMark ∧
          e.stage = target ∧ e.source = none ∧ e.tag = [] ∧
          e.digest = sha256 [byteOf s.ism.stage.number, byteOf target.number] ∧
          t.ism.chain 1 = sha256 (s.ism.chain 1 ++ e.digest)) ∧
        (∀ c, c ≠ 1 → t.ism.chain c = s.ism.chain c) ∧
        t.Answers identity .ok ([byteOf target.number, byteOf s.ism.log.length] ++ t.ism.chain 1) ∧
        (if s.gate.state ≠ .running ∧ 2 ≤ target.number then
          t.gate.state = .running ∧ t.gate.complete = none ∧ t.gate.attach = s.admittedGate.attach ∧
            t.gate.failures = 0 ∧ t.gate.silence = s.silenceDeadline ∧ t.gate.scanTimer = s.startScanTimer ∧
            t.gate.releaseCount = s.gate.releaseCount
        else t.gate = s.admittedGate) ∧
        RequestFrame s t ∧ t.engine = s.engine ∧ t.store = s.store ∧ t.biu = s.biu ∧ t.link.flags = s.link.flags ∧
        t.link.mask = s.link.mask

/-! ## Images (chapter 5) -/

/-- VERIFY STAGED in FIELD and RUNNING writes the staged record VERIFYING from NONE, VERIFIED or REJECTED, is BUSY in
VERIFYING and WRONG_STATE in ARMED and TRIAL; out of FIELD it is refused (R97, R184). The completion of that write is
the acceptance: the verification record is opened in MANIFEST_READ with a deadline of 4000 ms, the manifest job is
placed, and the reply is STARTED; where it fails nothing is placed and the reply is STORE_FAULT (R97, R98). The
completed update of VERIFIED closes the verification and raises IMAGE_DONE, and where it fails the verification is
closed all the same, with STORE_FAULT (R103); a completed rejection raises IMAGE_DONE (R105). -/
def Obligations.VerificationBeginsAndEndsInTheStore : Prop :=
  (∀ (s : State) (identity : Byte), s.Hears identity [] → s.hasRight identity.toNat rightUpdate = true →
    ∃ t, exec (.verifyStaged identity []) s = .next t ∧
      if s.kept.lifecycle ≠ .field ∨ s.gate.state ≠ .running then Replies s identity .wrongState [] t
      else match s.kept.staged with
        | .none | .verified _ _ | .rejected _ _ _ =>
          Hands s .verifyStaged identity [] (.stagedPut .verifying) (.accept identity.toNat) s.biu t
        | .verifying => Replies s identity .busy [] t
        | .armed _ _ | .trial _ _ => Replies s identity .wrongState [] t) ∧
  (∀ (s : State) (identity : Nat), s.powered = true → s.gate.selection = .idle →
    s.store.making = some ⟨.stagedPut .verifying, .accept identity⟩ →
    (∃ t, exec .storeWriteComplete s = .next t ∧ t.kept = { s.kept with staged := .verifying } ∧
      t.image.verification = some ⟨.manifestRead, identity, s.uptime, some (s.uptime + 4000), none, 0, 0⟩ ∧
      (⟨.imageVerify, s.inactiveBank.base s.bankSize, 4096, 4096, none, 0⟩ : Job) ∈
        t.reader.entries ++ t.image.unplaced.toList ∧
      t.Answers s.asker .started [] ∧ t.store = { s.store with making := none } ∧ t.link.flags = s.link.flags ∧
      t.ism = s.ism ∧ t.engine = s.engine ∧ t.uptime = s.uptime) ∧
    (∃ t, exec .storeWriteFailed s = .next t ∧ t.kept = s.kept ∧ t.image = s.image ∧ t.reader = s.reader ∧
      t.Answers s.asker .storeFault [] ∧ t.link.flags = s.link.flags ||| Flag.storeFault.set)) ∧
  (∀ (s : State) (f : ImageFields) (c : Option (List Region)), s.powered = true → s.gate.selection = .idle →
    s.store.making = some ⟨.stagedPut (.verified f c), .silent⟩ →
    (∃ t, exec .storeWriteComplete s = .next t ∧
      t = { s with
        kept := { s.kept with staged := .verified f c }, store := { s.store with making := none }
        image := { s.image with verification := none }
        link := { s.link with flags := s.link.flags ||| Flag.imageDone.set }, pins := t.pins }) ∧
    (∃ t, exec .storeWriteFailed s = .next t ∧
      t = { s with
        store := { s.store with making := none }, image := { s.image with verification := none }
        link := { s.link with flags := s.link.flags ||| Flag.storeFault.set }, pins := t.pins })) ∧
  (∀ (s : State) (f : Option ImageFields) (progress : Nat) (reason : RejectReason), s.powered = true →
    s.gate.selection = .idle → s.store.making = some ⟨.stagedPut (.rejected f progress reason), .silent⟩ →
    ∃ t, exec .storeWriteComplete s = .next t ∧
      t = { s with
        kept := { s.kept with staged := .rejected f progress reason }, store := { s.store with making := none }
        link := { s.link with flags := s.link.flags ||| Flag.imageDone.set }, pins := t.pins })

/-- ABORT IMAGE writes NONE over VERIFIED and REJECTED, VERIFIED over ARMED with tries 0 and no other record changed,
answers OK in NONE and is refused in TRIAL; in VERIFYING it stops the verification as well (R109). When the verification
deadline runs out, the staged record is rejected with TIMEOUT in one store write (R104, R105). Both close the
verification, discard its operation in the Signature Engine and cancel its job: one that waits or is not yet placed at
once; one in progress at once, with its context, where no burst of it is being read, and otherwise with the end of that
burst (R24, R54). -/
def Obligations.AbortAndDeadlineEndTheVerification : Prop :=
  (∀ (s : State) (identity : Byte), s.JobsMatch → s.Hears identity [] → s.hasRight identity.toNat rightUpdate = true →
    ∃ t, exec (.abortImage identity []) s = .next t ∧
      match s.kept.staged with
      | .none => Replies s identity .ok [] t
      | .verified _ _ | .rejected _ _ _ => Hands s .abortImage identity [] (.stagedPut .none) (.reply []) s.biu t
      | .armed _ _ => Hands s .abortImage identity [] .disarm (.reply []) s.biu t
      | .trial _ _ => Replies s identity .wrongState [] t
      | .verifying =>
        t.Serves .abortImage identity [] ∧
        t.store = { s.store with waiting := s.store.waiting ++ [⟨.stagedPut .none, .reply []⟩] } ∧
        t.image.verification = none ∧ t.engine = s.engine.filter (fun op => !op.isVerify) ∧
        (∀ j ∈ t.reader.waiting, j.purpose ≠ .imageVerify) ∧ t.image.unplaced = none ∧ VerifyJobGone s t ∧
        t.kept = s.kept ∧ t.ism = s.ism ∧ t.keys = s.keys ∧
        t.vault.penalty = s.vault.penalty ∧ t.vault.decay = s.vault.decay ∧ t.biu = s.biu ∧
        t.reactions = s.reactions ∧ t.link.flags = s.link.flags ∧ t.uptime = s.uptime ∧ t.pending = s.pending) ∧
  (∀ (s : State) (v : Verification) (d : Nat), s.JobsMatch → s.powered = true → s.image.verification = some v → v.deadline = some d →
    d ≤ s.uptime →
    ∃ t, exec .verificationDeadlineExpiry s = .next t ∧
      t.store = { s.store with
        waiting := s.store.waiting ++ [⟨.stagedPut (.rejected (v.manifest.map (·.fields)) v.progress .timeout), .silent⟩] } ∧
      t.image.verification = none ∧ t.engine = s.engine.filter (fun op => !op.isVerify) ∧
      (∀ j ∈ t.reader.waiting, j.purpose ≠ .imageVerify) ∧ t.image.unplaced = none ∧ VerifyJobGone s t ∧
      t.kept = s.kept ∧ t.ism = s.ism ∧ t.keys = s.keys ∧ t.link = s.link ∧ t.vault = s.vault ∧ t.biu = s.biu ∧
      t.reactions = s.reactions ∧ t.uptime = s.uptime ∧ t.pending = s.pending) ∧
  (∀ (r : Records) (x : Staged), r.apply (.stagedPut x) = { r with staged := x }) ∧
  (∀ (r : Records) (f : ImageFields) (c : Option (List Region)), r.staged = .armed f c →
    r.apply .disarm = { r with staged := .verified f c, selector := { r.selector with tries := 0 } })

/-- ARM TRIAL arms a verified image of line 0 with 1..3 tries, 2 where none are given, which makes the record ARMED with
those tries and changes no other (R110); CONFIRM IMAGE confirms a running trial of line 0, or a verified image of lines
1..3, in one store update, whose completion is answered with the new active bank and counter 0, or with the line's new
counter, and whose failure with STORE_FAULT (R112, R113). -/
def Obligations.ArmTrialAndConfirmImageHandTheirUpdate : Prop :=
  (∀ (r : Records) (n : Nat) (f : ImageFields) (c : Option (List Region)), r.staged = .verified f c →
    r.apply (.arm n) = { r with staged := .armed f c, selector := { r.selector with tries := n } }) ∧
  (∀ (s : State) (f : ImageFields) (regions : List Region), s.powered = true → s.gate.selection = .idle →
    s.store.making = some ⟨.confirmBoot, .replyConfirm 0⟩ → s.kept.staged = .trial f (some regions) →
    (∃ t, exec .storeWriteComplete s = .next t ∧ t.kept = s.kept.apply .confirmBoot ∧
      t.kept.selector = ⟨s.kept.selector.active.other, 0⟩ ∧ t.kept.counter 0 = f.epoch ∧ t.gate = s.gate ∧
      t.port = s.port ∧ t.Answers s.asker .ok (s.kept.selector.active.other.code :: le16 f.epoch)) ∧
    (∃ t, exec .storeWriteFailed s = .next t ∧ t.kept = s.kept ∧ t.Answers s.asker .storeFault [])) ∧
  (∀ (s : State) (f : ImageFields) (c : Option (List Region)) (line : Nat), s.powered = true →
    s.gate.selection = .idle → s.store.making = some ⟨.confirmLine line, .replyConfirm line⟩ →
    s.kept.staged = .verified f c → 1 ≤ line → line ≤ 3 →
    (∃ t, exec .storeWriteComplete s = .next t ∧ t.kept = s.kept.apply (.confirmLine line) ∧
      t.kept.counter line = f.epoch ∧ t.gate = s.gate ∧ t.Answers s.asker .ok (le16 f.epoch)) ∧
    (∃ t, exec .storeWriteFailed s = .next t ∧ t.kept = s.kept ∧ t.Answers s.asker .storeFault [])) ∧
  ∀ (s : State) (identity : Byte), s.hasRight identity.toNat rightUpdate = true → s.kept.lifecycle = .field →
    (∀ (payload : Bytes) (n : Nat) (f : ImageFields) (c : Option (List Region)), s.Hears identity payload →
      payload = [] ∧ n = 2 ∨ (∃ b : Byte, payload = [b] ∧ n = max 1 (min 3 b.toNat)) →
      s.kept.staged = .verified f c →
      ∃ t, exec (.armTrial identity payload) s = .next t ∧
        if f.line = 0 then Hands s .armTrial identity payload (.arm n) (.reply [byteOf n]) s.biu t
        else Replies s identity .badArgument [] t) ∧
    (∀ (f : ImageFields) (c : Option (List Region)), s.Hears identity [0] → s.kept.staged = .trial f c → f.line = 0 →
      ∃ t, exec (.confirmImage identity [0]) s = .next t ∧
        if s.gate.state = .running ∧ s.gate.trialBooted = true then
          Hands s .confirmImage identity [0] .confirmBoot (.replyConfirm 0) s.biu t
        else Replies s identity .wrongState [] t) ∧
    (∀ (line : Byte) (f : ImageFields) (c : Option (List Region)), s.Hears identity [line] → 1 ≤ line.toNat →
      line.toNat ≤ 3 → s.kept.staged = .verified f c →
      ∃ t, exec (.confirmImage identity [line]) s = .next t ∧
        if f.line = line.toNat then
          Hands s .confirmImage identity [line] (.confirmLine line.toNat) (.replyConfirm line.toNat) s.biu t
        else Replies s identity .badArgument [] t)

/-- The outcome of a verification's work is acted on. The manifest job's outcome, with its last burst or with its
digest, whichever comes later, rejects the record with BAD_LAYOUT or AUTHORITY_UNUSABLE, or places the VERIFY operation
of the authority's public key (R53, R98, R99, R100); the authority slot is usable where it passes its row of R10, in
which a suspended slot fails and a binding is not tested (R7, R10). Its verdict, taken when the operation completes,
rejects it with BAD_SIGNATURE, ROLLBACK or EPOCH_STEP, or re-sets the deadline to 4000 + 40 × U ms after the acceptance
and reads the first segment (R100, R101). A segment's outcome rejects the record with SEGMENT_MISMATCH, reads the next
segment, or hands VERIFIED to the store, for line 0 with the candidate set (R102, R103). That the deadline stops with
the last outcome is log entry 40, and that a verdict taken at the moment of the first deadline re-sets it is log entry
64, both the model's choice. -/
def Obligations.VerificationOutcomesAreActedOn : Prop :=
  (∀ (s : State) (i requester : Nat), s.authorityKey i requester =
    match s.slotFailure i requester authorityRow with
    | some _ => none
    | none => (s.kept.slot i).bind (·.material.publicKey)) ∧
  (∀ (s : State) (c : Instr) (j : Job) (v : Verification) (block digest : Bytes),
    s.image.verification = some v → j.isManifest = true →
    (c = .deBlockAbsorbed ∧ s.JobFinishes j ∧ block = s.reader.buffer ∧ digest = s.measuredDigest) ∨
      (∃ bytes n, c = .frBurstComplete bytes ∧ s.BurstArrives j bytes ∧ s.reader.cancelled = false ∧ j.remaining ≤ 256 ∧
        s.reader.signedLength = some n ∧ n ≤ j.length - j.remaining ∧ j.remaining < j.length ∧
        s.digest.reader.state = .finished ∧ block = s.reader.buffer ++ bytes ∧ digest = s.digest.reader.result) →
    ∃ t, exec c s = .next t ∧ t.digest.reader = Context.cleared ∧ t.link = s.link ∧ t.ism = s.ism ∧
      if layoutHolds s.bankSize block (readManifest block digest) = false then
        Rejected s (v.manifest.map (·.fields)) v.progress .badLayout t
      else match s.authorityKey (readManifest block digest).fields.authority v.requester with
        | none => Rejected s (some (readManifest block digest).fields) v.progress .authorityUnusable t
        | some key =>
          t.image.verification = some { v with manifest := some (readManifest block digest), phase := .signature } ∧
          t.engine = s.engine ++ [.verify (readManifest block digest).fields.authority key digest
            (readManifest block digest).signature] ∧
          t.store = s.store ∧ t.kept = s.kept) ∧
  (∀ (s : State) (j : Job) (v : Verification) (bytes : Bytes), s.image.verification = some v → j.isManifest = true →
    s.BurstArrives j bytes → s.reader.cancelled = false → j.remaining ≤ 256 → j.remaining < j.length →
    s.reader.signedLength = none → s.digest.reader.state ≠ .finished →
    ∃ t, exec (.frBurstComplete bytes) s = .next t ∧ Rejected s (v.manifest.map (·.fields)) v.progress .badLayout t) ∧
  (∀ (s : State) (v : Verification) (m : Manifest) (slot : Nat) (key digest signature : Bytes) (rest : List EngineOp),
    s.powered = true → s.engine = .verify slot key digest signature :: rest → s.image.verification = some v →
    v.manifest = some m →
    ∃ t, exec .seOperationComplete s = .next t ∧
      if Config.signatureValid key digest signature = false then Rejected s (some m.fields) v.progress .badSignature t
      else if m.fields.epoch < s.kept.counter m.fields.line then Rejected s (some m.fields) v.progress .rollback t
      else if s.kept.counter m.fields.line + 16 < m.fields.epoch then Rejected s (some m.fields) v.progress .epochStep t
      else t.engine = rest ∧ ∀ g, m.segments[0]? = some g →
        ReadsNext s { v with
            phase := .segments, index := 0
            deadline := some (v.acceptedAt + (4000 + 40 * (((m.segments.map (·.length)).sum + 65535) / 65536))) }
          ⟨.imageVerify, s.inactiveBank.base s.bankSize + g.offset, g.length, g.length, some g.digest, 0⟩ t) ∧
  (∀ (s : State) (j : Job) (v : Verification) (m : Manifest) (expected : Bytes), s.JobFinishes j →
    j.purpose = .imageVerify → j.expected = some expected → s.image.verification = some v → v.manifest = some m →
    ∃ t, exec .deBlockAbsorbed s = .next t ∧ t.digest.reader = Context.cleared ∧ t.link = s.link ∧ t.ism = s.ism ∧
      if s.measuredDigest ≠ expected then Rejected s (some m.fields) v.progress (.segmentMismatch v.index) t
      else match m.segments[v.index + 1]? with
        | some g => ReadsNext s { v with progress := v.progress + 1, index := v.index + 1 }
            ⟨.imageVerify, s.inactiveBank.base s.bankSize + g.offset, g.length, g.length, some g.digest, v.index + 1⟩ t
        | none =>
          t.image.verification = some { v with progress := v.progress + 1, deadline := none } ∧ t.kept = s.kept ∧
          t.store = { s.store with waiting := s.store.waiting ++ [⟨.stagedPut (.verified m.fields
            (if m.fields.line = 0 then
              some ((m.segments.filter fun g => g.attributes.getLsbD 0 || g.attributes.getLsbD 1).map fun g =>
                ⟨s.inactiveBank.base s.bankSize + g.offset, g.length, g.digest, g.attributes.getLsbD 0,
                  g.attributes.getLsbD 1⟩)
            else none)), .silent⟩] })

/-! ## The machine -/

/-- A step with a command at the front of the queue is the command's effect on the state with the queue's rest (the
queue is the model's, log entry 27). -/
def Obligations.StepRunsTheFrontCommand : Prop :=
  ∀ (s : State) (c : Instr) (rest : List Instr), s.pending = c :: rest → step s = exec c { s with pending := rest }

/-- With an empty queue a step takes the part's first event that is due; with none due a millisecond passes and changes
the uptime alone, a count of 48 bits; and without power nothing happens (R181; the order of due events is the model's,
log entry 6). -/
def Obligations.IdleStepLetsTimePass : Prop :=
  ∀ s : State, s.pending = [] →
    (∀ c rest, s.powered = true → s.dueEvents = c :: rest → step s = exec c s) ∧
    (s.powered = true → s.dueEvents = [] → step s = .next { s with uptime := (s.uptime + 1) % 2 ^ 48 }) ∧
    (s.powered = false → step s = .next s)

/-- Reset leaves the part as it leaves Arkhelo, at the end of its power-on: the factory records, the volatile fields at
their power-on values, SOC_HOLD asserted and bank selection to come (R25, R42, R43, R45, R48, R58, R62, R64, R66, R90,
R125, R147, R158, R167, R184, R190). That reset is the end of a power-on is log entry 7, with BTN released log entry 25,
and with an empty queue log entry 27: the model's choices. -/
def Obligations.ResetLeavesAFactoryPart : Prop :=
  State.reset = powerOnFrom factoryRecords false 0 [] ∧
  State.reset.kept = factoryRecords ∧
  (factoryRecords.lifecycle = .manufacture ∧ factoryRecords.layout = none ∧ factoryRecords.staged = .none ∧
    factoryRecords.selector = ⟨.a, 0⟩ ∧ factoryRecords.recoveryNext = false ∧
    factoryRecords.vault = ⟨false, 0, 3, 5, 7200, 24⟩ ∧ (∀ i, factoryRecords.slot i = none) ∧
    (∀ i, factoryRecords.cred i = none) ∧ (∀ line, factoryRecords.counter line = 0)) ∧
  State.reset.uptime = 0 ∧ State.reset.powered = true ∧ State.reset.pending = [] ∧
  State.reset.store = ⟨none, []⟩ ∧ State.reset.engine = [] ∧ State.reset.reader.entries = [] ∧
  State.reset.link.state = .idle ∧ State.reset.link.request = none ∧ State.reset.link.reply = none ∧
  State.reset.link.flags = 0 ∧ State.reset.link.mask = 0xFFF ∧ State.reset.link.badRun = 0 ∧
  State.reset.link.overruns = 0 ∧
  State.reset.ism.stage = .loader ∧ State.reset.ism.log = [] ∧
  (∀ c, State.reset.ism.chain c = List.replicate 32 0) ∧ (∀ i, State.reset.suspended i = false) ∧
  State.reset.digest.reader.state = .free ∧ State.reset.digest.link.state = .free ∧ State.reset.digest.mark = .link ∧
  State.reset.port.busy = true ∧ State.reset.port.violations = 0 ∧
  State.reset.gate.state = .measuring ∧ State.reset.gate.selection = .awaiting false true ∧
  State.reset.gate.releaseCount = 0 ∧ State.reset.gate.failures = 0 ∧ State.reset.gate.rebootPending = false ∧
  State.reset.image.verification = none ∧ (∀ i, State.reset.vault.penaltyOf i = none) ∧
  State.reset.biu.button = .undetermined ∧ State.reset.biu.window = none ∧ State.reset.biu.shown = none ∧
  State.reset.pins.socHold = true ∧ State.reset.pins.alert = false ∧ State.reset.pins.ind = false

/-- The state after reset keeps every law that the statements about steps carry on. -/
def Obligations.ResetKeepsTheLaws : Prop := State.reset.Safe

/-- Every step keeps SOC_HOLD asserted exactly while the Boot Gate is in MEASURING or FAULT_HOLD (R65), and ALERT driven
exactly while a set flag is in the mask (R176). The newest of the link's moments, which the model holds for transactions
in progress (log entry 10), stays the link as it stands. -/
def Obligations.StepKeepsThePins : Prop :=
  ∀ s t : State, s.PinsFollow → step s = .next t → t.PinsFollow

/-- Every step keeps the law of chains and log: each chain equals 32 zero bytes extended in log order by the event
digests of its entries (R32), each entry's sequence is its place (R34), an entry made by a request has one of the first
36 places (R36), and there are no more stage marks than stages passed (R30). Every step keeps what bounds the Boot
Gate's own entries between two starts of measurement, too: at most one for each of at most 8 jobs of one selection (R36,
R72, R73), in a state whose unplaced jobs are of their requesters' purposes. In a state of which both hold, the log has
at most 48 entries, at most 36 of them made by requests, 8 by measurements and 3 by advances (R34, R36, R30). -/
def Obligations.StepKeepsTheLawOfChainsAndLog : Prop :=
  (∀ s t : State, s.ism.Lawful → step s = .next t → t.ism.Lawful) ∧
  (∀ s t : State, s.JobsMatch → s.LogBounded → step s = .next t → t.LogBounded) ∧
  (∀ s : State, s.ism.Lawful → s.LogBounded →
    s.ism.log.length ≤ 48 ∧ s.ism.entriesOf [.request] ≤ 36 ∧ s.ism.measurements ≤ 8 ∧ s.ism.entriesOf [.stageMark] ≤ 3)

/-- Every step keeps each of three laws of the records. The owner law: while the vault is UNCLAIMED, no key slot and no
credential record of class OWNER exists (R144). The label law: no two key slots that are not EMPTY share a label, and no
two present credential records do (R4). The law of the requester table: identity 0 is enabled with ceiling LOADER, and
some enabled identity holds ADMIN (R27). That a write whose checks no longer hold is not made is log entry 46, the
model's. -/
def Obligations.StepKeepsTheLawsOfTheRecords : Prop :=
  (∀ s t : State, s.kept.OwnerLaw → step s = .next t → t.kept.OwnerLaw) ∧
  (∀ s t : State, s.kept.LabelLaw → step s = .next t → t.kept.LabelLaw) ∧
  (∀ s t : State, s.kept.AdminLaw → step s = .next t → t.kept.AdminLaw)

/-- Every step keeps the counts of the part within the widths and ends that the manual gives them, and the jobs that are
not yet placed of the purposes of their requesters: BOOT_MEASURE and SCAN for the Boot Gate, IMAGE_VERIFY for Image
Acceptance (R48, R49, R72, R87, R98; the lists of them in the state are log entry 22). -/
def Obligations.StepKeepsCountsInRangeAndJobsMatched : Prop :=
  (∀ s t : State, s.InRange → step s = .next t → t.InRange) ∧
  (∀ s t : State, s.JobsMatch → step s = .next t → t.JobsMatch)

/-- The persistent records change only by the write or update that the store is making, whole: at its completion, or at
the power loss or power-on that finds it landed (R182). The lives of slots and credential records, by which work under
way tells a slot or a record from one created in its place later (R118 to R120; log entry 53, the model's), never fall;
they rise where a slot becomes EMPTY or a record not present, and a place of a life that has ended names nothing. -/
def Obligations.OnlyTheStoreWritesRecords : Prop :=
  (∀ (c : Instr) (s t : State) (i : Nat), exec c s = .next t →
    ((s.kept.slotPlace i).life ≤ (t.kept.slotPlace i).life ∧
      (s.kept.slot i ≠ none → t.kept.slot i = none → (s.kept.slotPlace i).life < (t.kept.slotPlace i).life)) ∧
    ((s.kept.credPlace i).life ≤ (t.kept.credPlace i).life ∧
      (s.kept.cred i ≠ none → t.kept.cred i = none → (s.kept.credPlace i).life < (t.kept.credPlace i).life))) ∧
  (∀ (r : Records) (p : Place),
    (p = r.slotPlace p.index → r.slotAt p = r.slot p.index) ∧
    (p.life < (r.slotPlace p.index).life → r.slotAt p = none) ∧
    (p = r.credPlace p.index → r.credAt p = r.cred p.index) ∧
    (p.life < (r.credPlace p.index).life → r.credAt p = none)) ∧
  ∀ (c : Instr) (s t : State), exec c s = .next t →
    t.kept = s.kept ∨
      ∃ item, s.store.making = some item ∧ t.kept = s.kept.apply item.op ∧
        (c = .storeWriteComplete ∨ c = .powerOn true ∨ c = .powerLoss true)

/-- Every command is taken in every state, and none touches the queue: the model's choices, log entry 5 for events whose
condition fails, and log entry 27 for the queue. -/
def Obligations.EveryCommandIsTakenAndKeepsTheQueue : Prop :=
  ∀ (c : Instr) (s : State), ∃ t, exec c s = .next t ∧ t.pending = s.pending

/-! ## Engines (chapters 1 and 3) -/

/-- A digest context yields the digest of every byte given, in the order given, however its owner gives them: in pieces,
each absorbed before the next (R47), or at once; and a keyed digest is the keyed digest of the bytes under the key (R44;
the functions themselves are log entry 4, and the two key blocks as blocks of the one context log entry 32, which are
the model's). -/
def Obligations.DigestContextsComputeTheDigest : Prop :=
  (∀ pieces : List Bytes, (pieces.foldl Context.takes Context.opened).finish.Yields (sha256 pieces.flatten)) ∧
  (∀ bytes : Bytes, ((Context.opened.give bytes).finish).Yields (sha256 bytes)) ∧
  (∀ key bytes : Bytes, key.length ≤ 64 → (((Context.openedKeyed key).give bytes).finish).Yields (hmacSha256 key bytes))

/-- The Digest Engine, when it is free, takes the only block that is ready, or of two the one of the context that the
mark does not name, or none; the mark names LINK at power-on, and clearing a context does not change it. Every block
absorbed sets the mark to its context; a block of a context that goes on, not discarded, is absorbed into it, and the
engine takes the next block (R45). -/
def Obligations.DigestEngineTakesBlocksInTurn : Prop :=
  (∀ d : DigestEngine, d.absorbing = none →
    (d.reader.blockReady = true → d.link.blockReady = false → d.takeBlock.absorbing = some ⟨.reader, false⟩) ∧
    (d.reader.blockReady = false → d.link.blockReady = true → d.takeBlock.absorbing = some ⟨.link, false⟩) ∧
    (d.reader.blockReady = true → d.link.blockReady = true → d.mark = .reader →
      d.takeBlock.absorbing = some ⟨.link, false⟩) ∧
    (d.reader.blockReady = true → d.link.blockReady = true → d.mark = .link →
      d.takeBlock.absorbing = some ⟨.reader, false⟩) ∧
    (d.reader.blockReady = false → d.link.blockReady = false → d.takeBlock.absorbing = none)) ∧
  digestAtPowerOn.mark = .link ∧
  (∀ (which : CtxId) (d : DigestEngine), (d.clear which).mark = d.mark) ∧
  (∀ (s : State) (a : Absorption), s.powered = true → s.digest.absorbing = some a →
    ∃ t, exec .deBlockAbsorbed s = .next t ∧ t.digest.mark = a.context) ∧
  (∀ (s : State) (a : Absorption), s.powered = true → s.digest.absorbing = some a → a.discard = false →
    (s.digest.context a.context).absorb.state ≠ .finished →
    ∃ t, exec .deBlockAbsorbed s = .next t ∧
      t.digest.context a.context = (s.digest.context a.context).absorb ∧
      (∀ other, other ≠ a.context → t.digest.context other = s.digest.context other) ∧
      t.digest.absorbing = t.digest.choice.map (fun which => ⟨which, false⟩) ∧
      t.kept = s.kept ∧ t.store = s.store ∧ t.link = s.link ∧ t.ism = s.ism ∧ t.keys = s.keys ∧ t.engine = s.engine ∧
      t.reader = s.reader ∧ t.port = s.port ∧ t.gate = s.gate ∧ t.image = s.image ∧ t.vault = s.vault ∧
      t.biu = s.biu ∧ t.reactions = s.reactions ∧ t.uptime = s.uptime)

/-- When the LINK context has finished a request's digest, KEY SIGN places its SIGN operation, and KEY DERIVE hands the
count of the use to the store with the keyed digest as its result, of a slot that is ACTIVE (R14, R16). When a SIGN
operation at the head of the list completes, it leaves the list and the signature of a drawing, 64 bytes, goes to its
request, whose use is handed to the store to be counted before the reply (R23, R15, R119). The signature as a value
drawn with a counter is the model's (log entry 3). The completion of the count raises it by one, retires the slot at its
limit, and is answered with the result, and for KEY SIGN and KEY DERIVE with the new count and state; its failure leaves
the slot, discards the result and is answered STORE_FAULT (R6, R15, R119, R122). A slot that has become EMPTY by the
completion, be it created anew since (R120, log entry 53), or has been retired is not counted, and the reply is
SLOT_EMPTY or WRONG_STATE (log entries 38 and 46, the model's). -/
def Obligations.KeyUsesAreCountedBeforeTheReply : Prop :=
  (∀ (s : State) (p : Place) (k : KeySlot), s.powered = true → s.digest.absorbing = some ⟨.link, false⟩ →
    s.digest.link.absorb.state = .finished → s.kept.slotAt p = some k → k.state = .active →
    (k.slotClass = .owner → s.resetBegun = false) →
    (s.link.service = .signDigest p → ∃ t, exec .deBlockAbsorbed s = .next t ∧
      t.engine = s.engine ++ [.sign p.index k.material.privateBytes s.digest.link.absorb.result] ∧
      t.link = { s.link with service := .signEngine p } ∧ t.digest.mark = .link ∧ t.store = s.store ∧
      t.kept = s.kept ∧ t.ism = s.ism ∧ t.keys = s.keys ∧ t.gate = s.gate ∧ t.vault = s.vault ∧ t.biu = s.biu) ∧
    (s.link.service = .deriveDigest p → ∃ t, exec .deBlockAbsorbed s = .next t ∧
      t.store = { s.store with
        waiting := s.store.waiting ++ [⟨.slotCount p, .replyCounted p.index s.digest.link.absorb.result true⟩] } ∧
      t.link = s.link ∧ t.digest.mark = .link ∧ t.engine = s.engine ∧ t.kept = s.kept ∧ t.ism = s.ism ∧
      t.keys = s.keys ∧ t.gate = s.gate ∧ t.vault = s.vault ∧ t.biu = s.biu)) ∧
  (∀ (s : State) (p : Place) (j : Nat) (key digest : Bytes) (rest : List EngineOp) (k : KeySlot), s.powered = true →
    s.engine = .sign j key digest :: rest → s.kept.slotAt p = some k → k.state = .active →
    (k.slotClass = .owner → s.resetBegun = false) →
    (s.link.service = .signEngine p → ∃ t, exec .seOperationComplete s = .next t ∧ t.engine = rest ∧
      t.store = { s.store with waiting := s.store.waiting ++
        [⟨.slotCount p, .replyCounted p.index (Config.signature s.draws key digest) true⟩] } ∧
      (Config.signature s.draws key digest).length = 64 ∧ t.draws = s.draws + 1 ∧ t.link = s.link ∧ t.kept = s.kept ∧
      t.ism = s.ism ∧ t.keys = s.keys ∧ t.digest = s.digest ∧ t.gate = s.gate ∧ t.vault = s.vault ∧ t.biu = s.biu) ∧
    (∀ body, s.link.service = .statementEngine p body → ∃ t, exec .seOperationComplete s = .next t ∧ t.engine = rest ∧
      t.store = { s.store with waiting := s.store.waiting ++
        [⟨.slotCount p, .replyCounted p.index (body ++ Config.signature s.draws key digest) false⟩] } ∧
      t.draws = s.draws + 1 ∧ t.link = s.link ∧ t.kept = s.kept ∧ t.ism = s.ism ∧ t.keys = s.keys ∧
      t.digest = s.digest ∧ t.gate = s.gate ∧ t.vault = s.vault ∧ t.biu = s.biu)) ∧
  (∀ (s : State) (p : Place) (result : Bytes) (report : Bool), s.powered = true → s.gate.selection = .idle →
    s.store.making = some ⟨.slotCount p, .replyCounted p.index result report⟩ →
    (∀ k, s.kept.slotAt p = some k → k.state = .active →
      ∃ t k', exec .storeWriteComplete s = .next t ∧ t.kept.slot p.index = some k' ∧
        k'.useCount = (if k.useLimit = none then min (k.useCount + 1) 65535 else k.useCount + 1) ∧
        k'.state = (if k.useLimit = some (k.useCount + 1) then .retired else .active) ∧
        (∀ j, j ≠ p.index → t.kept.slot j = s.kept.slot j) ∧ t.store = { s.store with making := none } ∧
        t.Answers s.asker .ok
          (if report = true then result ++ le16 k'.useCount ++ [slotStateCode (some k'.state)] else result)) ∧
    (∀ status, (s.kept.slotAt p = none ∧ status = .slotEmpty) ∨
        (∃ k, s.kept.slotAt p = some k ∧ k.state = .retired ∧ status = .wrongState) →
      ∃ t, exec .storeWriteComplete s = .next t ∧ t.kept = s.kept ∧ t.Answers s.asker status []) ∧
    (∃ t, exec .storeWriteFailed s = .next t ∧ t.kept = s.kept ∧ t.keys = s.keys ∧ t.Answers s.asker .storeFault [] ∧
      t.link.flags = s.link.flags ||| Flag.storeFault.set))

/-- A finished digest of the LINK context goes on to its request. EXTEND DATA makes its checks again and then appends
the entry and extends the chain by the digest in one event, which it answers with the digest (R38). MAKE STATEMENT
places its SIGN operation with the slot's private key (R118). CRED ENROLL and PROVISION CREDENTIAL hand the record with
the digest as its value to the store (R132, R186), and CRED CHANGE the new value with the failure count cleared, and
without the old passphrase with the decay clock set anew (R140). A use whose slot has become EMPTY by then, or by the
completion of its operation, is answered SLOT_EMPTY with nothing signed or written, even where another key has been
created in the slot since (R15, R16, R118, R119, R120, R124; the lives that tell them apart are log entry 53; for KEY
SIGN before its operation log entry 19, the model's reading), and one whose slot is found RETIRED is refused WRONG_STATE
(R5; at these moments log entry 38, the model's reading). -/
def Obligations.FinishedDigestsGoOn : Prop :=
  (∀ (s : State) (chain : Nat) (tag : Bytes) (r : Request), s.LinkFinishes → s.link.service = .extendDigest chain tag →
    s.link.request = some r → 2 ≤ chain → chain ≤ 7 →
    ∃ t, exec .deBlockAbsorbed s = .next t ∧ t.kept = s.kept ∧ t.store = s.store ∧ t.gate = s.gate ∧
      if min (chain - 2) 3 < s.ism.stage.number then t.Answers (byteOf r.identity) .stageClosed [] ∧ t.ism = s.ism
      else if 36 ≤ s.ism.log.length then t.Answers (byteOf r.identity) .logFull [] ∧ t.ism = s.ism
      else
        t.ism = { s.ism with
          log := s.ism.log ++
            [⟨s.ism.log.length, chain, .request, s.linkDigest, s.ism.stage, some r.identity, tag⟩]
          chains := s.ism.chains.setIfInBounds chain (sha256 (s.ism.chain chain ++ s.linkDigest)) } ∧
        t.Answers (byteOf r.identity) .ok
          (byteOf s.ism.log.length :: (s.linkDigest ++ t.ism.chain chain ++ [byteOf (s.ism.log.length + 1)]))) ∧
  (∀ (s : State) (p : Place) (k : KeySlot) (body : Bytes), s.LinkFinishes → s.link.service = .statementDigest p body →
    s.kept.slotAt p = some k → k.state = .active →
    ∃ t, exec .deBlockAbsorbed s = .next t ∧
      t.engine = s.engine ++ [.sign p.index k.material.privateBytes s.linkDigest] ∧
      t.link = { s.link with service := .statementEngine p body } ∧ t.store = s.store ∧ t.kept = s.kept ∧
      t.ism = s.ism ∧ t.gate = s.gate) ∧
  (∀ (s : State) (f : CredForm), s.LinkFinishes → s.link.service = .enrolling f →
    s.kept.findCred f.label = none → s.kept.freeCred ≠ none → s.kept.vault.claimed = true →
    ∃ t, exec .deBlockAbsorbed s = .next t ∧
      t.store = { s.store with
        waiting := s.store.waiting ++ [⟨.credPut (f.record .owner s.linkDigest s.ism), .replyIndex f.label⟩] } ∧
      t.link = s.link ∧ t.kept = s.kept ∧ t.vault = s.vault ∧ t.ism = s.ism ∧ t.gate = s.gate) ∧
  (∀ (s : State) (f : CredForm), s.LinkFinishes → s.link.service = .provisioning f →
    (s.kept.findCred f.label = none ∧ s.kept.freeCred ≠ none) ∨
      (∃ i c, s.kept.findCred f.label = some (i, c) ∧ c.isOwner = false) →
    ∃ t, exec .deBlockAbsorbed s = .next t ∧
      t.store = { s.store with waiting := s.store.waiting ++
        [⟨.credPut (f.record (.factory s.linkDigest false) s.linkDigest s.ism), .replyIndex f.label⟩] } ∧
      t.link = s.link ∧ t.kept = s.kept ∧ t.vault = s.vault ∧ t.ism = s.ism ∧ t.gate = s.gate) ∧
  (∀ (s : State) (p : Place) (old : Bool), s.LinkFinishes → s.link.service = .changing p old →
    ∃ t, exec .deBlockAbsorbed s = .next t ∧
      t.store = { s.store with
        waiting := s.store.waiting ++ [⟨.credValue p s.linkDigest true (!old), .reply []⟩] } ∧
      t.link = s.link ∧ t.kept = s.kept ∧ t.vault = s.vault ∧ t.ism = s.ism ∧ t.gate = s.gate) ∧
  (∀ (s : State) (c : Instr) (p : Place) (status : Status), (s.kept.slotAt p = none ∧ status = .slotEmpty) ∨
      (∃ k, s.kept.slotAt p = some k ∧ k.state = .retired ∧ status = .wrongState) →
    (c = .deBlockAbsorbed ∧ s.LinkFinishes ∧ (s.link.service = .signDigest p ∨ s.link.service = .deriveDigest p ∨
        ∃ body, s.link.service = .statementDigest p body)) ∨
      (c = .seOperationComplete ∧ s.powered = true ∧ (∃ j key digest rest, s.engine = .sign j key digest :: rest) ∧
        (s.link.service = .signEngine p ∨ ∃ body, s.link.service = .statementEngine p body)) →
    ∃ t, exec c s = .next t ∧ t.Answers s.asker status [] ∧ t.store = s.store ∧ t.kept = s.kept ∧ t.ism = s.ism ∧
      t.gate = s.gate ∧ (c = .deBlockAbsorbed → t.engine = s.engine))

/-- A ready burst is granted while nothing is being served and, while the SoC is not held, no SoC transaction waits
(R56); it reads the lesser of 256 and the remaining length from start plus (length − remaining) (R51), with the flash
ready, for which the mark is cleared at the burst's start (log entry 21, the model's). When it has been read, its bytes
lower the remaining length and free the port, and are given to the READER context, which the job's first burst opens and
the last asks to finish (R51, R47). Of a manifest job every byte is kept in the buffer, and the signed part, of the
length that the first burst gives, is given to the context (R53). The bytes of a cancelled job are discarded, and the
job is removed with its context (R54). -/
def Obligations.ReaderBurstsAreGrantedAndRead : Prop :=
  (∀ (s : State) (j : Job), s.powered = true → s.burstReady = true → s.port.side = .idle →
    s.held = true ∨ s.port.socWaiting = false → s.reader.current = some j →
    ∃ t, exec .frBurstStart s = .next t ∧ t.reader = { s.reader with bursting := true } ∧
      t.port = { s.port with
        side := .burst (j.start + (j.length - j.remaining)) (min 256 j.remaining), busy := false } ∧
      t.digest = s.digest ∧ t.kept = s.kept ∧ t.store = s.store ∧ t.link = s.link ∧ t.ism = s.ism ∧ t.gate = s.gate ∧
      t.image = s.image ∧ t.uptime = s.uptime) ∧
  (∀ s : State, s.port.side ≠ .idle ∨ (s.held = false ∧ s.port.socWaiting = true) → exec .frBurstStart s = .next s) ∧
  (∀ (s : State) (j : Job) (bytes : Bytes), s.BurstArrives j bytes → s.reader.cancelled = false → j.isManifest = false →
    (j.remaining ≤ 256 → (s.burstContext j).state = .absorbing) →
    ∃ t, exec (.frBurstComplete bytes) s = .next t ∧ BurstFrame s t ∧ t.gate = s.gate ∧
      t.reader = { s.reader with
        current := some { j with remaining := j.remaining - min 256 j.remaining }, bursting := false } ∧
      t.digest.reader = s.plainContext j bytes) ∧
  (∀ (s : State) (j : Job) (bytes : Bytes), s.BurstArrives j bytes → s.reader.cancelled = false → j.isManifest = true →
    256 < j.remaining →
    ∃ t, exec (.frBurstComplete bytes) s = .next t ∧ BurstFrame s t ∧ t.gate = s.gate ∧
      t.reader = { s.reader with
        current := some { j with remaining := j.remaining - 256 }, bursting := false
        buffer := s.reader.buffer ++ bytes, signedLength := s.signedAfter j bytes } ∧
      t.digest.reader = s.manifestContext j bytes) ∧
  (∀ (s : State) (j : Job) (bytes : Bytes), s.BurstArrives j bytes → s.reader.cancelled = true →
    ∃ t, exec (.frBurstComplete bytes) s = .next t ∧ BurstFrame s t ∧ t.reader.bursting = false ∧
      t.reader.cancelled = false ∧ t.reader.buffer = [] ∧ t.digest.reader = Context.cleared ∧
      t.gate.verdict = s.gate.verdict ∧ t.gate.jobsLeft = s.gate.jobsLeft ∧
      t.gate.scanRecord = s.gate.scanRecord ∧
      (∀ next, t.reader.current = some next →
        next ∈ s.reader.waiting ++ s.gate.unplaced ++ s.image.unplaced.toList ++ s.gate.unplacedScans))

/-- Key material that has been made is handed to the store as a new ACTIVE slot with use count 0: a pair with its public
key, or 32 random bytes; the reply carries the state, for KEY GENERATE the label, and the public key of a pair, and no
bytes of a secret (R18, R17, R185). In an UNCLAIMED vault a slot of class OWNER is refused WRONG_STATE, and while an
owner reset is begun its write is held back (R17, R144). The random bytes as a value drawn with a counter are the
model's (log entry 3). -/
def Obligations.GeneratedMaterialIsHandedToTheStore : Prop :=
  (∀ (s : State) (i : Nat) (p : Policy) (c : SlotClass) (provision : Bool) (random : Bytes), s.powered = true →
    s.link.service = .generating i p provision → SlotClass.ofCode p.classCode = some c →
    (c = .owner → s.kept.vault.claimed = true ∧ s.resetBegun = false) → random = Config.randomBytes s.draws →
    random.length = 32 ∧
    (KeyKind.ofCode p.kindCode = some .signingPair → ∃ t, exec .keyMaterialGenerated s = .next t ∧
      t.store = { s.store with waiting := s.store.waiting ++
        [⟨.slotPut i (p.newSlot c (.pair (some random) (Config.publicKeyOf random)) s.ism),
          .reply ([1] ++ (if provision = true then [] else labelBytes p.label) ++ Config.publicKeyOf random)⟩] } ∧
      t.draws = s.draws + 1 ∧ t.link = { s.link with service := .none } ∧ t.kept = s.kept ∧ t.ism = s.ism ∧
      t.keys = s.keys ∧ t.engine = s.engine ∧ t.gate = s.gate ∧ t.vault = s.vault ∧ t.biu = s.biu) ∧
    (KeyKind.ofCode p.kindCode = some .secret → ∃ t, exec .keyMaterialGenerated s = .next t ∧
      t.store = { s.store with waiting := s.store.waiting ++
        [⟨.slotPut i (p.newSlot c (.secret (some random)) s.ism),
          .reply ([1] ++ (if provision = true then [] else labelBytes p.label))⟩] } ∧
      t.draws = s.draws + 1 ∧ t.link = { s.link with service := .none } ∧ t.kept = s.kept ∧ t.ism = s.ism ∧
      t.keys = s.keys ∧ t.engine = s.engine ∧ t.gate = s.gate ∧ t.vault = s.vault ∧ t.biu = s.biu)) ∧
  (∀ (s : State) (i : Nat) (p : Policy) (provision : Bool), s.powered = true →
    s.link.service = .generating i p provision → SlotClass.ofCode p.classCode = some .owner →
    (s.kept.vault.claimed = false → s.resetBegun = false → ∃ t, exec .keyMaterialGenerated s = .next t ∧
      t.Answers s.asker .wrongState [] ∧ t.store = s.store ∧ t.kept = s.kept ∧ t.keys = s.keys) ∧
    (s.resetBegun = true → ∃ t, exec .keyMaterialGenerated s = .next t ∧ t.keys.held.isSome = true ∧
      t.store = s.store ∧ t.kept = s.kept ∧ t.link.state = s.link.state))

/-! ## Store and power (chapter 11) -/

/-- The store, when it is making nothing, takes the oldest item of its list (R183). The completion of an item gives
every record it names its new content and its request the reply; a failure leaves every record, answers STORE_FAULT and
raises the flag; the reply releases the vault where the request holds it (R145); both leave the items that wait (R182,
R183). An item whose own checks no longer hold of the records at its completion is not made, and its request is answered
with the reply of the check that fails: the model's choice (log entry 46). Items with another continuation than a reply
have their statements with the work that goes on. -/
def Obligations.StoreTakesCompletesAndFailsWrites : Prop :=
  (∀ (s : State) (item : StoreItem) (rest : List StoreItem), s.powered = true → s.store = ⟨none, item :: rest⟩ →
    ∃ t, exec .storeWriteStart s = .next t ∧ t = { s with store := ⟨some item, rest⟩, pins := t.pins }) ∧
  (∀ (s : State) (op : StoreOp) (payload : Bytes), s.powered = true → s.store.making = some ⟨op, .reply payload⟩ →
    s.gate.selection = .idle →
    (s.kept.recheck op = .ok () → ∃ t, exec .storeWriteComplete s = .next t ∧ t.kept = s.kept.apply op ∧
      t.store = { s.store with making := none } ∧ t.Answers s.asker .ok payload ∧ t.ism = s.ism ∧ t.engine = s.engine ∧
      t.reader = s.reader ∧ t.port = s.port ∧ t.uptime = s.uptime ∧ t.pending = s.pending ∧
      t.vault.holder = (if s.vault.holder = some .request then none else s.vault.holder)) ∧
    (∀ status, s.kept.recheck op = .error status → ∃ t, exec .storeWriteComplete s = .next t ∧ t.kept = s.kept ∧
      t.store = { s.store with making := none } ∧ t.Answers s.asker status [] ∧ t.link.flags = s.link.flags ∧
      t.ism = s.ism ∧ t.engine = s.engine ∧ t.reader = s.reader ∧ t.port = s.port ∧ t.uptime = s.uptime ∧
      t.pending = s.pending ∧ t.vault.holder = (if s.vault.holder = some .request then none else s.vault.holder)) ∧
    (∃ t, exec .storeWriteFailed s = .next t ∧ t.kept = s.kept ∧
      t.store = { s.store with making := none } ∧ t.Answers s.asker .storeFault [] ∧
      t.link.flags = s.link.flags ||| Flag.storeFault.set ∧ t.ism = s.ism ∧ t.engine = s.engine ∧
      t.reader = s.reader ∧ t.port = s.port ∧ t.uptime = s.uptime ∧ t.pending = s.pending ∧
      t.vault.holder = (if s.vault.holder = some .request then none else s.vault.holder)))

/-- The completions of writes to key slots. A write of a slot changes no other slot and no other record. A created slot
stands as its record says, with no suspension, and is answered with the length of its first chunk or, for PROVISION
SLOT, its state; it is refused with SLOT_OCCUPIED or LABEL_TAKEN where the slot or the label is no longer free, and for
class OWNER with WRONG_STATE where the vault is UNCLAIMED (R17, R20, R185, R4). A chunk is appended and answered with
the new length, and is refused where the slot is EMPTY or the chunk no longer follows its data (R20). KEY RESTRICT's
policy is narrowed, the slot retired where the limit is at or below the count, and answered as by KEY INFO (R21). A slot
created by KEY IMPORT is followed by the count write of the unwrapping slot, which is refused where that slot has become
EMPTY by then (R19; created anew or not, log entry 53). The refusals at the completion are log entry 46, and the emptied
unwrapping slot log entry 52, the model's. -/
def Obligations.KeyWritesCompleteAndAnswer : Prop :=
  (∀ (r : Records) (i : Nat) (record : KeySlot), i < 24 → r.slot i = none → r.slotLabelFree record.label = true →
    (record.slotClass = .owner → r.vault.claimed = true) →
    (r.apply (.slotPut i record)).slot i = some record ∧
      (∀ j, j ≠ i → (r.apply (.slotPut i record)).slot j = r.slot j) ∧
      r.apply (.slotPut i record) = { r with slots := (r.apply (.slotPut i record)).slots }) ∧
  (∀ (r : Records) (op : StoreOp) (p : Place), op.slot = some p →
    (∀ j, j ≠ p.index → (r.apply op).slot j = r.slot j) ∧
      r.apply op = { r with slots := (r.apply op).slots, slotLives := (r.apply op).slotLives }) ∧
  (∀ (s : State) (i : Nat) (record : KeySlot) (chunk : Bytes) (provision : Bool), s.powered = true →
    s.gate.selection = .idle → s.store.making = some ⟨.slotPut i record, .replyBlob i provision⟩ →
    record.material = .blob chunk → i < 24 →
    ∃ t, exec .storeWriteComplete s = .next t ∧ t.store = { s.store with making := none } ∧
      (∀ j, j ≠ i → t.kept.slot j = s.kept.slot j) ∧
      if s.kept.slot i ≠ none then t.kept = s.kept ∧ t.Answers s.asker .slotOccupied []
      else if s.kept.slotLabelFree record.label = false then t.kept = s.kept ∧ t.Answers s.asker .labelTaken []
      else if record.slotClass = .owner ∧ s.kept.vault.claimed = false then
        t.kept = s.kept ∧ t.Answers s.asker .wrongState []
      else t.kept.slot i = some record ∧ t.suspended i = false ∧
        t.Answers s.asker .ok (if provision = true then [slotStateCode (some record.state)] else le16 chunk.length)) ∧
  (∀ (s : State) (p : Place) (offset : Nat) (chunk : Bytes) (provision : Bool), s.powered = true → s.gate.selection = .idle →
    s.store.making = some ⟨.slotAppend p offset chunk, .replyBlob p.index provision⟩ →
    (∀ k data, s.kept.slotAt p = some k → k.state = .active → k.material = .blob data →
      ∃ t, exec .storeWriteComplete s = .next t ∧
        if offset = data.length ∧ offset + chunk.length ≤ 1024 then
          t.kept.slot p.index = some { k with material := .blob (data ++ chunk) } ∧
          t.Answers s.asker .ok
            (if provision = true then [slotStateCode (some .active)] else le16 (data.length + chunk.length))
        else t.kept = s.kept ∧ t.Answers s.asker .badArgument []) ∧
    (s.kept.slotAt p = none →
      ∃ t, exec .storeWriteComplete s = .next t ∧ t.kept = s.kept ∧ t.Answers s.asker .slotEmpty [])) ∧
  (∀ (s : State) (p : Place) (usage answers : Byte) (limit : Option Nat) (binding : Option Binding) (k : KeySlot),
    s.powered = true → s.gate.selection = .idle →
    s.store.making = some ⟨.slotRestrict p usage answers limit binding, .replyKeyInfo p.index⟩ →
    s.kept.slotAt p = some k → k.state = .active → usage ≠ 0 → subset usage k.usage = true → answers ≠ 0 →
    subset answers k.answerSet = true → binding = none ∨ k.binding = none →
    (∀ held l, k.useLimit = some held → limit = some l → l ≤ held) →
    ∃ t k', exec .storeWriteComplete s = .next t ∧ t.kept.slot p.index = some k' ∧ k'.usage = usage ∧ k'.answerSet = answers ∧
      k'.useLimit = limit.or k.useLimit ∧ k'.binding = binding.or k.binding ∧ k'.useCount = k.useCount ∧
      k'.label = k.label ∧
      k'.state = (if (k'.useLimit.any fun l => decide (l ≤ k.useCount)) = true then .retired else .active) ∧
      t.Answers s.asker .ok (t.slotInfo p.index)) ∧
  (∀ (s : State) (i : Nat) (u : Place) (record : KeySlot) (payload : Bytes), s.powered = true → s.gate.selection = .idle →
    s.store.making = some ⟨.slotPut i record, .countUnwrap u payload⟩ → i < 24 → u.index ≠ i → s.kept.slot i = none →
    s.kept.slotLabelFree record.label = true → (record.slotClass = .owner → s.kept.vault.claimed = true) →
    (∀ k, s.kept.slotAt u = some k → k.state = .active → (∀ item ∈ s.store.waiting, item.op ≠ .ownerReset) →
      ∃ t, exec .storeWriteComplete s = .next t ∧ t.kept.slot i = some record ∧ t.link = s.link ∧
        t.store = ⟨none, s.store.waiting ++ [⟨.slotCount u, .reply payload⟩]⟩) ∧
    (s.kept.slotAt u = none → ∃ t, exec .storeWriteComplete s = .next t ∧ t.kept.slot i = some record ∧
      t.Answers s.asker .slotEmpty [] ∧ t.store = ⟨none, s.store.waiting⟩))

/-- A counted use of an ACTIVE slot raises the use count by one; without a limit it saturates at 65535; when it reaches
the limit the same write retires the slot, which discards a private key or a secret and keeps the rest (R6, R5); of
another slot, or of one emptied and created anew since, it changes nothing (log entries 46 and 53, the model's). The
owner reset empties every OWNER slot and removes every OWNER record, gives every FACTORY record its factory copy with
failure count 0 and changed = no, and makes the vault UNCLAIMED with owner tag 0 and its default parameters (R144). The
confirming update of line 0 makes the trial bank active with no tries left and its golden set the candidate set, marks
the other bank's set not valid, writes counter 0 with the staged epoch and discards the staged record (R112); that of
lines 1..3 writes the line's counter and discards the staged record (R113). Each keeps every other record. -/
def Obligations.UpdatesWriteTheirRecordsTogether : Prop :=
  (∀ (r : Records) (p : Place), (∀ k, r.slotAt p = some k → k.state = .retired) → r.apply (.slotCount p) = r) ∧
  (∀ (r : Records) (p : Place) (k : KeySlot), r.slotAt p = some k → k.state = .active →
    (∀ j, j ≠ p.index → (r.apply (.slotCount p)).slot j = r.slot j) ∧
    r.apply (.slotCount p) = { r with slots := (r.apply (.slotCount p)).slots } ∧
    (k.useLimit = none →
      (r.apply (.slotCount p)).slot p.index = some { k with useCount := min (k.useCount + 1) 65535 }) ∧
    (∀ limit, k.useLimit = some limit → k.useCount + 1 ≠ limit →
      (r.apply (.slotCount p)).slot p.index = some { k with useCount := k.useCount + 1 }) ∧
    (∀ limit, k.useLimit = some limit → k.useCount + 1 = limit →
      (r.apply (.slotCount p)).slot p.index =
        some { k with
          useCount := limit, state := .retired,
          material := match k.material with
            | .pair _ publicKey => .pair none publicKey
            | .secret _ => .secret none
            | .verifyPublic publicKey => .verifyPublic publicKey
            | .blob data => .blob data })) ∧
  (∀ r : Records,
    (∀ (i : Nat) k, r.slot i = some k →
      (r.apply .ownerReset).slot i = if k.slotClass = .owner then none else some k) ∧
    (∀ i, r.slot i = none → (r.apply .ownerReset).slot i = none) ∧
    (∀ (i : Nat) c, r.cred i = some c → c.credClass = .owner → (r.apply .ownerReset).cred i = none) ∧
    (∀ (i : Nat) c copy changed, r.cred i = some c → c.credClass = .factory copy changed →
      (r.apply .ownerReset).cred i = some { c with value := copy, failures := 0, credClass := .factory copy false }) ∧
    (∀ i, r.cred i = none → (r.apply .ownerReset).cred i = none) ∧
    (r.apply .ownerReset).vault = ⟨false, 0, 3, 5, 7200, 24⟩ ∧
    r.apply .ownerReset =
      { r with
        slots := (r.apply .ownerReset).slots
        slotLives := (r.apply .ownerReset).slotLives
        creds := (r.apply .ownerReset).creds
        credLives := (r.apply .ownerReset).credLives
        vault := (r.apply .ownerReset).vault }) ∧
  (∀ (r : Records) (f : ImageFields) (regions : List Region), r.staged = .trial f (some regions) →
    (r.apply .confirmBoot).selector = ⟨r.selector.active.other, 0⟩ ∧ (r.apply .confirmBoot).staged = .none ∧
    (r.apply .confirmBoot).golden r.selector.active.other = ⟨true, f.epoch, f.build, regions⟩ ∧
    (r.apply .confirmBoot).golden r.selector.active = { r.golden r.selector.active with valid := false } ∧
    (r.apply .confirmBoot).counter 0 = f.epoch ∧
    (∀ line, line ≠ 0 → (r.apply .confirmBoot).counter line = r.counter line) ∧
    r.apply .confirmBoot =
      { r with
        selector := (r.apply .confirmBoot).selector
        staged := (r.apply .confirmBoot).staged
        goldenA := (r.apply .confirmBoot).goldenA
        goldenB := (r.apply .confirmBoot).goldenB
        counters := (r.apply .confirmBoot).counters }) ∧
  (∀ (r : Records) (f : ImageFields) (c : Option (List Region)) (line : Nat), r.staged = .verified f c → line ≤ 3 →
    (r.apply (.confirmLine line)).counter line = f.epoch ∧ (r.apply (.confirmLine line)).staged = .none ∧
    (∀ other, other ≠ line → (r.apply (.confirmLine line)).counter other = r.counter other) ∧
    r.apply (.confirmLine line) =
      { r with
        staged := (r.apply (.confirmLine line)).staged, counters := (r.apply (.confirmLine line)).counters })

/-- Power-on takes the records as stored, whole, and gives every volatile field its power-on value: every flag clear and
the mask full, SOC_HOLD asserted, the engines idle, nothing of the store left but the rejection of a record that it
finds VERIFYING (R190, R106); such a record has no verification, and its rejection carries no fields and progress 0,
which is the model's own (log entry 41). The penalties are imposed anew from second 0 and the decay clocks are 0 (R137).
Power loss keeps the records, with a write being made found whole or not at all, loses everything volatile and every
write not yet started, and leaves no pin driven (R182, R190). The model's own: the pins of an unpowered part (log entry
24), that a power loss of an unpowered part changes nothing (log entry 5), the level of BTN that power-on takes as it is
(log entry 25), and the link's moments (log entry 10). The operand says whether the write that power loss cuts short has
landed. -/
def Obligations.PowerKeepsTheRecordsAndImposesPenalties : Prop :=
  (∀ (landed : Bool) (s : State), ∃ t, exec (.powerOn landed) s = .next t ∧
    (t.kept = match s.store.making with
      | some item => if landed = true then s.kept.apply item.op else s.kept
      | none => s.kept) ∧
    t.uptime = 0 ∧ t.powered = true ∧ t.pending = s.pending ∧ t.link = linkAtPowerOn ∧ t.ism = ismAtStart ∧
    t.engine = [] ∧ t.reader = readerAtPowerOn ∧ t.digest = digestAtPowerOn ∧ t.port = portAtPowerOn ∧
    t.biu = biuAtPowerOn s.biu.pressed ∧
    t.gate.state = .measuring ∧ t.gate.selection = .awaiting false true ∧ t.gate.releaseCount = 0 ∧
    t.gate.failures = 0 ∧ t.gate.recovery = false ∧ t.gate.audit = false ∧ t.pins = ⟨true, false, false, [], [⟨true, .idle, none⟩]⟩ ∧
    (t.store.making = none ∧ t.store.waiting =
      if t.kept.staged = .verifying then [⟨.stagedPut (.rejected none 0 .interrupted), .silent⟩] else []) ∧
    (∀ i, t.suspended i = false) ∧ t.reactions = ⟨Vector.replicate 8 false, Vector.replicate 8 0⟩ ∧
    t.vault.holder = none ∧ t.vault.waiting = [] ∧ (∀ i, t.vault.clockOf i = 0) ∧
    (1 ≤ t.kept.vault.base → 1 ≤ t.kept.vault.cap → ∀ i, i < 16 →
      t.vault.penaltyOf i = match t.kept.cred i with
        | some c =>
          if c.failures ≤ t.kept.vault.free then none
          else some (min t.kept.vault.cap (t.kept.vault.base * 2 ^ (c.failures - t.kept.vault.free - 1)))
        | none => none)) ∧
  (∀ (landed : Bool) (s : State), s.powered = true → ∃ t, exec (.powerLoss landed) s = .next t ∧
    (t.kept = match s.store.making with
      | some item => if landed = true then s.kept.apply item.op else s.kept
      | none => s.kept) ∧
    t.powered = false ∧ t.store = ⟨none, []⟩ ∧ t.link = linkAtPowerOn ∧ t.ism = ismAtStart ∧ t.engine = [] ∧
    t.reader = readerAtPowerOn ∧ t.image.verification = none ∧ t.pins = ⟨false, false, false, [], []⟩ ∧
    t.pending = s.pending) ∧
  (∀ (landed : Bool) (s : State), s.powered = false → exec (.powerLoss landed) s = .next s)

/-! ## The Boot Gate and the Reaction Table (chapters 4 and 9) -/

/-- In MANUFACTURE bank selection selects bank A, sets AUDIT and the verdict UNMEASURED, places no job and releases at
once: SOC_HOLD is deasserted, the release count rises by one, from 63 to 0, the attach deadline starts at ATTACH_LIMIT
and the mapping shows bank A; chains and log stay (R75, R76). -/
def Obligations.ManufactureReleasesWithoutMeasurement : Prop :=
  ∀ (s : State) (shortPress : Bool), s.powered = true → s.gate.selection = .awaiting shortPress true →
    s.gateWritesDone = true → s.biu.button ≠ .undetermined → s.kept.lifecycle = .manufacture →
    s.kept.staged ≠ .verifying →
    ∃ t, exec .bankSelection s = .next t ∧
      t.gate = { s.gate with
        state := .released, selected := some (.bank .a), verdict := .unmeasured, audit := true, selection := .idle
        booted := if s.kept.goldenA.valid = true then
          some ⟨s.kept.goldenA.regions, s.kept.goldenA.epoch, s.kept.goldenA.build, false⟩ else none
        releaseCount := (s.gate.releaseCount + 1) % 64
        attach := some (s.uptime + 1000 * s.kept.params.attachLimit) } ∧
      t.pins.socHold = false ∧ t.port = { s.port with mapping := some ⟨.bank .a, .b⟩ } ∧ t.reader = s.reader ∧
      t.ism = s.ism ∧ t.kept = s.kept ∧ t.store = s.store ∧ t.link = s.link ∧ t.keys = s.keys ∧ t.image = s.image ∧
      t.engine = s.engine ∧ t.digest = s.digest ∧ t.vault = s.vault ∧ t.biu = s.biu ∧ t.reactions = s.reactions ∧
      t.uptime = s.uptime

/-- In FIELD bank selection takes the first step that holds: recovery, which is measured whole, where RECOVERY_NEXT, a
short press in FAULT_HOLD or the pressed button asks for it and R is above 0; a trial with a try left, which is written
first; the fallback of a trial without one, which is the condition event TRIAL_FALLBACK (R70, R160); or the active bank
with its golden set, of which every region with MEASURE is measured (R68 to R72). Where R is 0, RECOVERY_NEXT is cleared
and the later steps are taken (R68). That the measurement does not wait for this clearing, nor for the rejection of a
spent trial, is the model's reading (log entry 15), and so is that the clearing stands before the write of a trial in
the store's list: R183 lets two writers' items of one event be taken in either order (log entry 44). The sets meant have
a region with MEASURE: what follows for one without is log entry 23, the model's. The jobs stand in set order in the
reader's list and then among those not yet placed (R49, R191). When the write of a trial has completed, the staged state
is TRIAL with one try fewer and the trial bank is measured with the candidate set; where it fails nothing of the trial
is changed, STORE_FAULT is raised, and the active bank is selected (R70). -/
def Obligations.BankSelectionTakesTheFirstStepThatHolds : Prop :=
  (∀ (r : Records) (b : Bool), r.apply (.recoveryNext b) = { r with recoveryNext := b }) ∧
  (∀ (s : State) (f : ImageFields) (regions : List Region), s.powered = true → s.gate.selection = .trialWrite →
    s.store.making = some ⟨.trialTry, .trialSelected⟩ →
    s.kept.staged = .armed f (some regions) ∨ s.kept.staged = .trial f (some regions) →
    s.reader.entries = [] → s.image.unplaced = none → s.gate.scanRound = none →
    (regions.any (·.measure) = true → ∃ t, exec .storeWriteComplete s = .next t ∧
      t.kept = { s.kept with
        staged := .trial f (some regions)
        selector := { s.kept.selector with tries := s.kept.selector.tries - 1 } } ∧
      t.gate.state = s.gate.state ∧ t.gate.selection = .idle ∧
      t.gate.selected = some (.bank s.kept.selector.active.other) ∧
      t.gate.booted = some ⟨regions, f.epoch, f.build, true⟩ ∧ t.gate.verdict = .matched ∧
      t.gate.jobsLeft = (regions.filter (·.measure)).length ∧
      t.reader.entries ++ t.gate.unplaced = ((regions.zipIdx).filter fun (r, _) => r.measure).map (fun (r, i) =>
        ⟨.bootMeasure, r.start, r.length, r.length, some r.digest, i⟩) ∧
      t.store = { s.store with making := none } ∧ t.ism = s.ism ∧ t.link = s.link) ∧
    ((s.kept.golden s.kept.selector.active).valid = true →
      (s.kept.golden s.kept.selector.active).regions.any (·.measure) = true →
      ∃ t, exec .storeWriteFailed s = .next t ∧ t.kept = s.kept ∧ t.gate.selection = .idle ∧
        t.gate.selected = some (.bank s.kept.selector.active) ∧ t.gate.trialBooted = false ∧
        t.gate.verdict = .matched ∧ t.link = { s.link with flags := s.link.flags ||| Flag.storeFault.set })) ∧
  ∀ (s : State) (shortPress : Bool) (l : Layout), s.powered = true → s.gate.selection = .awaiting shortPress true →
    s.gateWritesDone = true → s.biu.button ≠ .undetermined → s.kept.lifecycle = .field → s.kept.layout = some l →
    s.reader.entries = [] → s.image.unplaced = none → s.gate.scanRound = none →
    (0 < l.recoverySize → s.kept.recoveryNext = true ∨ shortPress = true ∨ s.biu.button = .pressed →
      ∃ t, exec .bankSelection s = .next t ∧ t.gate.state = s.gate.state ∧ t.gate.selected = some .recovery ∧
        t.gate.recovery = true ∧ t.gate.booted = none ∧ t.gate.verdict = .recovery ∧ t.gate.jobsLeft = 1 ∧
        t.gate.unplaced = [] ∧
        t.reader.current = some ⟨.bootMeasure, 2 * l.bankSize, l.recoverySize, l.recoverySize, none, 0⟩ ∧
        t.store = { s.store with waiting := s.store.waiting ++ [⟨.recoveryNext false, .silent⟩] } ∧ t.kept = s.kept ∧
        t.ism = s.ism ∧ t.link = s.link) ∧
    (∀ cleared : List StoreItem,
      l.recoverySize = 0 ∨ (s.kept.recoveryNext = false ∧ shortPress = false ∧ s.biu.button ≠ .pressed) →
      cleared = (if s.kept.recoveryNext = true then [⟨.recoveryNext false, .silent⟩] else []) →
      (s.kept.staged.onTrial = true → 0 < s.kept.selector.tries →
        ∃ t, exec .bankSelection s = .next t ∧ t.gate = { s.gate with selection := .trialWrite } ∧
          t.store = { s.store with waiting := s.store.waiting ++ cleared ++ [⟨.trialTry, .trialSelected⟩] } ∧ t.kept = s.kept ∧
          t.ism = s.ism ∧ t.reader = s.reader ∧ t.link = s.link) ∧
      (s.kept.staged.onTrial = true → s.kept.selector.tries = 0 → s.gate.state = .measuring →
        ∃ t, exec .bankSelection s = .next t ∧ t.kept = s.kept ∧ t.gate.trialBooted = false ∧
          t.gate.selected = some (.bank s.kept.selector.active) ∧
          (⟨.stagedPut (.rejected s.kept.staged.fields s.kept.staged.progress .trialFailed), .silent⟩ : StoreItem) ∈
            t.store.waiting ∧
          (∀ item ∈ cleared, item ∈ t.store.waiting) ∧
          ((s.kept.golden s.kept.selector.active).valid = true →
            (s.kept.golden s.kept.selector.active).regions.any (·.measure) = true →
            t.reactions.counts = s.raisedCounts .trialFallback 0 ∧
            t.link = { s.link with flags := s.link.flags ||| s.reactionFlag .trialFallback 0 })) ∧
      (s.kept.staged.onTrial = false → (s.kept.golden s.kept.selector.active).valid = true →
        (s.kept.golden s.kept.selector.active).regions.any (·.measure) = true →
        ∃ t, exec .bankSelection s = .next t ∧ t.gate.state = s.gate.state ∧
          t.gate.selected = some (.bank s.kept.selector.active) ∧
          t.gate.booted = some ⟨(s.kept.golden s.kept.selector.active).regions,
            (s.kept.golden s.kept.selector.active).epoch, (s.kept.golden s.kept.selector.active).build, false⟩ ∧
          t.gate.verdict = .matched ∧ t.gate.selection = .idle ∧
          t.gate.jobsLeft = ((s.kept.golden s.kept.selector.active).regions.filter (·.measure)).length ∧
          t.reader.entries ++ t.gate.unplaced =
            (((s.kept.golden s.kept.selector.active).regions.zipIdx).filter fun (r, _) => r.measure).map (fun (r, i) =>
              ⟨.bootMeasure, r.start, r.length, r.length, some r.digest, i⟩) ∧
          t.store = { s.store with waiting := s.store.waiting ++ cleared } ∧ t.kept = s.kept ∧
          t.ism = s.ism ∧ t.link = s.link))

/-- When a measurement job ends, the measured digest is recorded first: a BOOT_REGION entry tagged with the region's
index, or a RECOVERY_MARK, which extends chain 0; then it is judged, and the first mismatching region is kept in the
verdict (R73). With the last job the measurement ends: without a mismatch, and under AUDIT with one, in a release, and
under AUDIT with the mark set, BOOT_NOTE raised and BOOT_MISMATCH fired before it; under STRICT in a new start of
measurement for a trial bank, and otherwise in FAULT_HOLD, with BOOT_MISMATCH fired and every timer stopped (R74, R76).
A staged record that a release finds VERIFYING is rejected with ABORTED_BY_RELEASE (R106), with the fields and the
progress of a verification that is open, and of a stalled record with none and 0 (log entry 41, the model's); a start of
measurement that finds it VERIFYING rejects it with INTERRUPTED in the same way. What a start of measurement clears and
leaves is BootEnded of Safety.lean, which rests on log entries 14, 36, 41 and 55 as well, the model's (R54, R67, R106,
R146). -/
def Obligations.BootMeasurementsAreRecordedAndEnd : Prop :=
  ∀ (s : State) (j : Job) (verdict : Verdict) (m : Ism), s.JobFinishes j → j.purpose = .bootMeasure →
    s.gate.state = .measuring →
    verdict = (if s.gate.verdict = .matched ∧ j.expected ≠ none ∧ j.expected ≠ some s.measuredDigest then .mismatch j.index
      else s.gate.verdict) →
    m = (if s.gate.selected = some .recovery then
        { s.ism with
          log := s.ism.log ++ [⟨s.ism.log.length, 0, .recoveryMark, s.measuredDigest, s.ism.stage, none, []⟩]
          chains := s.ism.chains.setIfInBounds 0 (sha256 (s.ism.chain 0 ++ s.measuredDigest)) }
      else
        { s.ism with
          log := s.ism.log ++
            [⟨s.ism.log.length, 0, .bootRegion, s.measuredDigest, s.ism.stage, none, [byteOf j.index]⟩]
          chains := s.ism.chains.setIfInBounds 0 (sha256 (s.ism.chain 0 ++ s.measuredDigest)) }) →
    ∃ t, exec .deBlockAbsorbed s = .next t ∧ t.kept = s.kept ∧ t.digest.reader = Context.cleared ∧
      t.vault.penalty = s.vault.penalty ∧ t.vault.decay = s.vault.decay ∧ t.uptime = s.uptime ∧
      (1 < s.gate.jobsLeft →
        t.gate.state = .measuring ∧ t.gate.verdict = verdict ∧ t.gate.jobsLeft = s.gate.jobsLeft - 1 ∧ t.ism = m ∧
        t.store = s.store ∧ t.link = s.link ∧ t.engine = s.engine ∧ t.port = s.port ∧ t.biu = s.biu ∧
        t.reactions = s.reactions) ∧
      (s.gate.jobsLeft = 1 → (∀ i, verdict ≠ .mismatch i) →
        Released s t ∧ t.gate.verdict = verdict ∧ t.gate.audit = s.gate.audit ∧ t.ism = m ∧ t.link = s.link ∧
        t.biu = s.biu ∧ t.reactions = s.reactions ∧
        t.store = (if s.kept.staged = .verifying then
          { s.store with waiting := s.store.waiting ++
            [⟨.stagedPut (.rejected s.image.knownFields s.image.progress .abortedByRelease), .silent⟩] }
          else s.store)) ∧
      (∀ i, s.gate.jobsLeft = 1 → verdict = .mismatch i → s.kept.params.bootPolicy = .audit →
        Released s t ∧ t.gate.verdict = verdict ∧ t.gate.audit = true ∧ t.ism = m ∧
        t.link.flags = s.link.flags ||| Flag.bootNote.set ||| s.reactionFlag .bootMismatch 0 ∧
        t.reactions.counts = s.raisedCounts .bootMismatch 0) ∧
      (∀ i, s.gate.jobsLeft = 1 → verdict = .mismatch i → s.kept.params.bootPolicy = .strict →
        s.gate.trialBooted = true → BootEnded false s t) ∧
      (∀ i, s.gate.jobsLeft = 1 → verdict = .mismatch i → s.kept.params.bootPolicy = .strict →
        s.gate.trialBooted = false →
        t.gate.state = .faultHold ∧ t.pins.socHold = true ∧ t.gate.verdict = verdict ∧ t.ism = m ∧
        t.gate.failures = s.gate.failures ∧ t.gate.releaseCount = s.gate.releaseCount ∧
        t.gate.attach = none ∧ t.gate.complete = none ∧ t.gate.dwell = none ∧ t.gate.reboot = none ∧
        t.gate.silence = none ∧ t.gate.scanTimer = none ∧ t.gate.rebootPending = false ∧
        t.link.flags = s.link.flags ||| s.reactionFlag .bootMismatch 0 ∧
        t.reactions.counts = s.raisedCounts .bootMismatch 0)

/-- The three causes of a failed attempt: the attach deadline in RELEASED, the boot-complete deadline in ATTACHED, and
SOC_RESTART in either. Of the active bank or RECOVERY, the first and second failure hold the SoC for a dwell of 100 ms
and the third takes it to FAULT_HOLD with every timer stopped; of a trial bank, a start of measurement follows at once
with no failure counted; and a pending reboot is taken in its place (R79, R81, R82). What a start of measurement clears
and leaves is BootEnded of Safety.lean (R46, R54, R67, R106, R145, R146, R183), with the model's choices of log entries
14 (a write that it waits for), 36 (the count write of a KEY IMPORT), 41 (a stalled record) and 55 (a write held back).
-/
def Obligations.FailedAttemptsHoldTheSoc : Prop :=
  ∀ (s : State) (c : Instr), s.powered = true →
    (c = .attachDeadlineExpiry ∧ s.gate.state = .released ∧ reached s.gate.attach s.uptime = true) ∨
      (c = .bootCompleteDeadlineExpiry ∧ s.gate.state = .attached ∧ reached s.gate.complete s.uptime = true) ∨
      (c = .socRestart ∧ (s.gate.state = .released ∨ s.gate.state = .attached)) →
    ∃ t, exec c s = .next t ∧
      if s.gate.rebootPending = true ∨ s.gate.trialBooted = true then BootEnded false s t
      else t.pins.socHold = true ∧ t.port = s.port.endSoc ∧
        (if s.gate.failures + 1 < 3 then
          t.gate = { s.gate with
            state := .measuring, attach := none, complete := none, failures := s.gate.failures + 1
            dwell := some (s.uptime + 100) }
        else
          t.gate = { s.gate with
            state := .faultHold, attach := none, complete := none, dwell := none, silence := none, reboot := none
            rebootPending := false, scanTimer := none, failures := 3 }) ∧
        t.kept = s.kept ∧ t.store = s.store ∧ t.link = s.link ∧ t.ism = s.ism ∧ t.keys = s.keys ∧
        t.engine = s.engine ∧ t.digest = s.digest ∧ t.reader = s.reader ∧ t.image = s.image ∧ t.vault = s.vault ∧
        t.biu = s.biu ∧ t.reactions = s.reactions ∧ t.uptime = s.uptime

/-- REBOOT ROUTER answers OK and leaves a reboot pending, to be taken at the latest in 100 ms (R82). What ends a boot
with a start of measurement: the end of a hold dwell, SOC_RESTART in RUNNING, the reboot timer, and the taking of the
reply while a reboot is pending; SOC_RESTART has no effect while the SoC is held (R79, R81, R82, R67). The start drops
the request with its reply, its LINK context, its hold of the vault and its place in the vault's list; abandons the scan
round; cancels IMAGE_VERIFY and SCAN jobs and stops the verification, whose record is rejected with INTERRUPTED; leaves
every begun write in the store with no one to answer; and awaits bank selection (BootEnded of Safety.lean; R46, R54,
R106, R145, R146, R183). The model's own: it waits for every write that bank selection waits for (log entry 14); a KEY
IMPORT's count write (36); a stalled record's rejection with no fields (41); a held-back write is discarded (55). -/
def Obligations.StartsOfMeasurementEndTheBoot : Prop :=
  (∀ s : State, s.powered = true → s.gate.state = .measuring → reached s.gate.dwell s.uptime = true →
    ∃ t, exec .holdDwellExpiry s = .next t ∧ BootEnded false s t) ∧
  (∀ s : State, s.powered = true → s.gate.state = .running → ∃ t, exec .socRestart s = .next t ∧ BootEnded false s t) ∧
  (∀ s : State, s.held = true → exec .socRestart s = .next s) ∧
  (∀ s : State, s.powered = true → s.held = false → s.gate.rebootPending = true →
    reached s.gate.reboot s.uptime = true → ∃ t, exec .rebootTimerExpiry s = .next t ∧ BootEnded false s t) ∧
  (∀ (s : State) (r : Reply) (n : Nat), s.powered = true → s.held = false → s.link.state = .ready →
    s.link.reply = some r → r.frame.length ≤ n → s.gate.rebootPending = true →
    ∃ t, exec (.poll ⟨n, .now⟩) s = .next t ∧ BootEnded false s t) ∧
  (∀ (s : State) (identity : Byte), s.Hears identity [] →
    s.hasRight identity.toNat rightUpdate = true ∨ s.hasRight identity.toNat rightAdmin = true →
    ∃ t, exec (.rebootRouter identity []) s = .next t ∧ t.Answers identity .ok [] ∧
      t.gate = { s.admittedGate with rebootPending := true, reboot := some (s.uptime + 100) } ∧
      RequestFrame s t ∧ t.ism = s.ism ∧ t.engine = s.engine ∧ t.store = s.store ∧ t.biu = s.biu ∧
      t.link.flags = s.link.flags ∧ t.link.mask = s.link.mask)

/-- The silence watch runs out once: SILENCE is raised, the condition is an event (R160), and the watch stays stopped
(R85; HOLD_SOC is part of the statement on that action). The scan timer sets its next expiry one period later, and
starts a round of the booted set's SCAN regions, whose jobs stand in set order in the reader's list and then among those
not yet placed, or raises the skip count while one is in progress (R86, R87, R191). That a SCAN_PERIOD of 0 stops the
timer at the expiry is log entry 39, the model's. -/
def Obligations.SilenceAndScanTimersRunOut : Prop :=
  (∀ s : State, s.powered = true → s.gate.state = .running → reached s.gate.silence s.uptime = true →
    .holdSoc ∉ s.actionsOf (s.matching .linkSilence 0) →
    ∃ t, exec .silenceWatchExpiry s = .next t ∧ t.gate = { s.gate with silence := none } ∧
      t.link = { s.link with flags := s.link.flags ||| Flag.silence.set |||
        (if s.matching .linkSilence 0 = [] then 0 else Flag.reaction.set) } ∧
      t.kept = s.kept ∧ t.ism = s.ism ∧ t.engine = s.engine ∧ t.reader = s.reader ∧ t.uptime = s.uptime ∧
      (s.matching .linkSilence 0 = [] → t.store = s.store ∧ t.reactions = s.reactions ∧ t.biu = s.biu ∧
        t.vault = s.vault ∧ t.keys = s.keys)) ∧
  (∀ (s : State) (b : BootedSet), s.gate.booted = some b →
    s.scanJobs = ((b.regions.zipIdx).filter fun (r, _) => r.scan).map (fun (r, i) =>
      ⟨.scan, r.start, r.length, r.length, some r.digest, i⟩)) ∧
  (∀ (s : State) (timer : ScanTimer), s.JobsMatch → s.powered = true → s.gate.state = .running →
    s.gate.scanTimer = some timer → timer.next ≤ s.uptime →
    ∃ t, exec .scanTimerExpiry s = .next t ∧
      t.gate.scanTimer = (if 0 < s.kept.params.scanPeriod then
        some ⟨s.kept.params.scanPeriod, timer.next + 60000 * s.kept.params.scanPeriod⟩ else none) ∧
      (match s.gate.scanRound with
        | some current => t.gate.scanRound = some current ∧ t.reader = s.reader ∧
            t.gate.scanRecord = { s.gate.scanRecord with skips := min (s.gate.scanRecord.skips + 1) 255 }
        | none =>
          if s.scanJobs = [] then t.gate.scanRound = none ∧ t.reader = s.reader ∧
            t.gate.scanRecord = { s.gate.scanRecord with
              rounds := min (s.gate.scanRecord.rounds + 1) 65535, lastRound := some s.second }
          else t.gate.scanRecord = s.gate.scanRecord ∧ ∃ begun, t.gate.scanRound = some begun ∧
            begun.left = s.scanJobs.length ∧ begun.mismatched = false ∧
            t.reader.entries.filter (·.purpose == .scan) ++ t.gate.unplacedScans =
              s.reader.entries.filter (·.purpose == .scan) ++ s.scanJobs) ∧
      t.gate.state = .running ∧ t.kept = s.kept ∧ t.store = s.store ∧ t.link = s.link ∧ t.ism = s.ism ∧
      t.uptime = s.uptime)

/-- When a scan job ends with a match nothing is recorded. With a mismatch its region, the release count and the uptime
second become the last mismatch; the round's first raises SCAN_MISMATCH and is a condition event, and a later one is
neither. The round's last job ends the round: the rounds-done count rises by one, saturating at 65535, and the second is
recorded (R88). No scan changes the chains or the log. The HOLD_SOC action is part of the statement on that action. -/
def Obligations.ScanVerdictsAreRecorded : Prop :=
  ∀ (s : State) (j : Job) (expected : Bytes) (current : ScanRound), s.JobFinishes j → j.purpose = .scan →
    j.expected = some expected → s.gate.scanRound = some current →
    (s.measuredDigest ≠ expected → current.mismatched = false →
      .holdSoc ∉ s.actionsOf (s.matching .scanMismatch 0)) →
    ∃ t, exec .deBlockAbsorbed s = .next t ∧ t.ism = s.ism ∧ t.kept = s.kept ∧ t.gate.state = s.gate.state ∧
      t.gate.scanRecord.skips = s.gate.scanRecord.skips ∧ t.digest.reader = Context.cleared ∧ t.uptime = s.uptime ∧
      (if current.left ≤ 1 then
        t.gate.scanRound = none ∧ t.gate.scanRecord.rounds = min (s.gate.scanRecord.rounds + 1) 65535 ∧
        t.gate.scanRecord.lastRound = some (s.uptime / 1000)
      else
        t.gate.scanRecord.rounds = s.gate.scanRecord.rounds ∧
        t.gate.scanRecord.lastRound = s.gate.scanRecord.lastRound ∧
        ∃ begun, t.gate.scanRound = some begun ∧ begun.left = current.left - 1 ∧
          begun.mismatched = (current.mismatched || decide (s.measuredDigest ≠ expected))) ∧
      (if s.measuredDigest = expected then
        t.gate.scanRecord.lastMismatch = s.gate.scanRecord.lastMismatch ∧ t.link = s.link ∧
        t.reactions = s.reactions ∧ t.store = s.store
      else
        t.gate.scanRecord.lastMismatch = some ⟨j.index, s.gate.releaseCount, s.uptime / 1000⟩ ∧
        if current.mismatched = true then t.link = s.link ∧ t.reactions = s.reactions ∧ t.store = s.store
        else t.link = { s.link with flags := s.link.flags ||| Flag.scanMismatch.set ||| s.reactionFlag .scanMismatch 0 } ∧
          t.reactions.counts = s.raisedCounts .scanMismatch 0)

/-- A button hold of 10 s is a condition event, once per press: every matching entry fires in one event, with its mark
set where it is a once-entry and its count raised, REACTION is raised once, and the actions are carried out: the pattern
of the highest entry shown, the slots of the union of the sets suspended, RECOVERY_NEXT written, and an owner reset
waiting for the vault; an event that matches nothing changes nothing (R148, R160, R161). The HOLD_SOC action, which ends
the boot, is part of the statement on that action. -/
def Obligations.ButtonHoldFiresEveryMatchingEntry : Prop :=
  ∀ (s : State) (p : PressTimer), s.powered = true → s.biu.press = some p → p.untimed = false → p.holdFired = false →
    p.since + 10000 ≤ s.uptime → .holdSoc ∉ s.actionsOf (s.matching .buttonHold 0) →
    ∃ t, exec .buttonHold s = .next t ∧ t.biu.press = some { p with holdFired := true } ∧ t.kept = s.kept ∧
      t.gate = s.gate ∧ t.ism = s.ism ∧ t.engine = s.engine ∧ t.reader = s.reader ∧ t.uptime = s.uptime ∧
      t.biu.button = s.biu.button ∧ t.biu.window = s.biu.window ∧ t.biu.presence = s.biu.presence ∧
      t.biu.host = s.biu.host ∧
      (s.matching .buttonHold 0 = [] →
        t.reactions = s.reactions ∧ t.link = s.link ∧ t.keys = s.keys ∧ t.vault = s.vault ∧ t.store = s.store ∧
        t.biu.reaction = s.biu.reaction) ∧
      (s.matching .buttonHold 0 ≠ [] →
        t.link = { s.link with flags := s.link.flags ||| Flag.reaction.set } ∧
        (∀ (i : Nat) e mark n, s.kept.reactions[i]? = some e → s.reactions.fired[i]? = some mark →
          s.reactions.counts[i]? = some n →
          if e.enabled = true ∧ e.condition = .buttonHold ∧ (e.once = true → mark = false) then
            t.reactions.fired[i]? = some (mark || e.once) ∧ t.reactions.counts[i]? = some (min (n + 1) 255)
          else t.reactions.fired[i]? = some mark ∧ t.reactions.counts[i]? = some n) ∧
        (∀ i < 24, t.suspended i =
          (s.suspended i || s.kept.slotMeets (suspendSet (s.actionsOf (s.matching .buttonHold 0))) i)) ∧
        (.ownerReset ∈ s.actionsOf (s.matching .buttonHold 0) → .reset ∈ t.vault.waiting) ∧
        (.ownerReset ∉ s.actionsOf (s.matching .buttonHold 0) → t.vault = s.vault) ∧
        t.store.waiting = s.store.waiting ++
          (if .recoveryNext ∈ s.actionsOf (s.matching .buttonHold 0) then
            [⟨.recoveryNext true, .reactionWrite false⟩] else []) ∧
        t.biu.reaction =
          match ((s.actionsOf (s.matching .buttonHold 0)).filterMap Action.patternNumber).getLast? with
          | some number => s.biu.reaction.give s.uptime (s.kept.pattern number)
          | none => s.biu.reaction)

/-- HOLD_SOC, as an action of a silence expiry, of a button hold, of a dropped write, of a burst of failed frames or of
a scan mismatch, ends the boot where the SoC runs, after the event's other actions (R83, R161); and it has no effect
where the SoC is held, where the other actions are carried out all the same. With RECOVERY_NEXT among the actions its
write is handed over first, and the boot ends with the end of that write, completed or failed, where the SoC still runs
(R83, R161; that the start waits for this write is log entry 16, the model's reading). What the start clears and leaves
is BootStopped and BootEnded of Safety.lean (R46, R54, R67, R106, R145, R146, R183), with the model's choices of log
entries 14, 36, 41 and 55; the order in which one event hands items to the store is log entry 44. -/
def Obligations.HoldSocEndsTheBoot : Prop :=
  (∀ (s : State) (c : Instr) (condition : Condition), s.powered = true → s.held = false →
    (c = .silenceWatchExpiry ∧ condition = .linkSilence ∧ s.gate.state = .running ∧
        reached s.gate.silence s.uptime = true) ∨
      (∃ p, c = .buttonHold ∧ condition = .buttonHold ∧ s.biu.press = some p ∧ p.untimed = false ∧ p.holdFired = false ∧
        p.since + 10000 ≤ s.uptime) ∨
      (∃ command, c = .socFlashCommand command ∧ condition = .protectViolation ∧ s.port.soc = none ∧
        s.protectedTouch command = true) ∨
      (∃ body crc, c = .badFrame (0xA5 :: (body ++ crc)) ∧ condition = .frameErrorBurst ∧ s.link.state = .idle ∧
        s.link.badRun = 7 ∧ crc.length = 2 ∧ 4 ≤ body.length ∧ crc ≠ crcBytes body) ∨
      (∃ j current expected, c = .deBlockAbsorbed ∧ condition = .scanMismatch ∧ s.JobFinishes j ∧ j.purpose = .scan ∧
        j.expected = some expected ∧ expected ≠ s.measuredDigest ∧ s.gate.scanRound = some current ∧
        current.mismatched = false) →
    .holdSoc ∈ s.actionsOf (s.matching condition 0) →
    ∃ t, exec c s = .next t ∧ t.reactions.counts = s.raisedCounts condition 0 ∧
      (.ownerReset ∈ s.actionsOf (s.matching condition 0) → .reset ∈ t.vault.waiting) ∧
      (.recoveryNext ∉ s.actionsOf (s.matching condition 0) → BootStopped false s t) ∧
      (.recoveryNext ∈ s.actionsOf (s.matching condition 0) →
        t.gate.state = s.gate.state ∧ t.pins.socHold = false ∧ t.ism = s.ism ∧ t.kept = s.kept ∧
        t.store = { s.store with waiting := s.store.waiting ++ [⟨.recoveryNext true, .reactionWrite true⟩] })) ∧
  (∀ s : State, s.powered = true → s.held = false → s.gate.selection = .idle →
    s.store.making = some ⟨.recoveryNext true, .reactionWrite true⟩ →
    (∃ t, exec .storeWriteComplete s = .next t ∧
      BootEnded false { s with kept := { s.kept with recoveryNext := true }, store := { s.store with making := none } } t) ∧
    (∃ t, exec .storeWriteFailed s = .next t ∧ BootEnded false { s with store := { s.store with making := none } } t)) ∧
  (∀ (s : State) (p : PressTimer), s.powered = true → s.held = true → s.biu.press = some p → p.untimed = false →
    p.holdFired = false → p.since + 10000 ≤ s.uptime →
    ∃ t, exec .buttonHold s = .next t ∧ t.gate = s.gate ∧ t.ism = s.ism ∧ t.kept = s.kept ∧ t.engine = s.engine ∧
      t.reactions.counts = s.raisedCounts .buttonHold 0 ∧
      t.store.waiting = s.store.waiting ++ (if .recoveryNext ∈ s.actionsOf (s.matching .buttonHold 0) then
        [⟨.recoveryNext true, .reactionWrite false⟩] else []))

/-! ## SoC flash transactions (chapter 3) -/

/-- Once the layout is written, a PROGRAM or ERASE is dropped exactly when its affected range holds an address of the
boot view, of the recovery region, or of the staging view while the staged state is VERIFYING, VERIFIED, ARMED or TRIAL;
a whole-device erase is always dropped; READ and OTHER never are; and before the layout is written nothing is (R61). A
dropped one is answered by the port itself: nothing is forwarded, the violation counter rises by one, saturating at
65535, PROTECT_VIOLATION is raised, and the drop is a condition event, which raises REACTION where it matches an entry
(R62, R160). The HOLD_SOC action is part of the statement on that action. -/
def Obligations.ProtectedWritesAreDroppedAndCounted : Prop :=
  (∀ (s : State) (command : FlashCommand), s.kept.layout = none → s.protectedTouch command = false) ∧
  (∀ (s : State) (l : Layout) (address length : Nat), s.kept.layout = some l →
    s.protectedTouch (.read address length) = false ∧ s.protectedTouch .status = false ∧
      s.protectedTouch .other = false ∧ s.protectedTouch .eraseDevice = true) ∧
  (∀ (s : State) (l : Layout) (address first stop : Nat) (command : FlashCommand), s.kept.layout = some l →
    (command = .program address ∧ first = address - address % 256 ∧ stop = first + 256) ∨
      (∃ size, 0 < size ∧ command = .erase address size ∧ first = address - address % size ∧ stop = first + size) →
    (s.protectedTouch command = true ↔
      ∃ x, first ≤ x ∧ x < stop ∧
        (x < l.bankSize ∨
          (l.bankSize ≤ x ∧ x < 2 * l.bankSize ∧
            (s.kept.staged = .verifying ∨ ∃ f c, s.kept.staged = .verified f c ∨ s.kept.staged = .armed f c ∨
              s.kept.staged = .trial f c)) ∨
          (2 * l.bankSize ≤ x ∧ x < 2 * l.bankSize + l.recoverySize)))) ∧
  (∀ (s : State) (command : FlashCommand), s.powered = true → s.held = false → s.port.soc = none →
    s.protectedTouch command = true → .holdSoc ∉ s.actionsOf (s.matching .protectViolation 0) →
    ∃ t, exec (.socFlashCommand command) s = .next t ∧
      t.port = { s.port with soc := some ⟨command, .dropped⟩, violations := min (s.port.violations + 1) 65535 } ∧
      t.link = { s.link with flags := s.link.flags ||| Flag.protectViolation.set |||
        (if s.matching .protectViolation 0 = [] then 0 else Flag.reaction.set) } ∧
      t.kept = s.kept ∧ t.gate = s.gate ∧ t.reader = s.reader ∧ t.ism = s.ism ∧ t.engine = s.engine ∧
      t.image = s.image ∧ t.uptime = s.uptime ∧
      (s.matching .protectViolation 0 = [] → t.store = s.store ∧ t.reactions = s.reactions ∧ t.biu = s.biu ∧
        t.keys = s.keys ∧ t.vault = s.vault))

/-- A SoC transaction that is not dropped is forwarded at its mapped address at once where the flash is free, waits
where a burst is being read and is forwarded when the flash is free, or, where the port fills every byte of it, is
answered by the port (R55, R56, R59). Its end frees the port and, after a forwarded PROGRAM or ERASE, sets the flash
busy mark; a status read that reports ready clears the mark (R58). A transaction that still waits when its FT_CS rises
is discarded: log entry 63, the model's choice. Under a written layout and the mapping of a release, a READ within one
view reaches the flash at the view's physical address: the booted bank or the recovery region below S, FF from R on
where recovery is booted, the staging bank in [S, 2S), and the same address from 2S on (R59). A READ that runs on past
the end of a view is ended there and issued again at the mapped address of the next SoC address, so that its bytes are
those of consecutive SoC addresses, each at its own mapped address (R60). -/
def Obligations.SocTransactionsAreForwardedAndEnd : Prop :=
  (∀ (s : State) (command : FlashCommand), s.powered = true → s.held = false → s.port.soc = none →
    s.protectedTouch command = false →
    ∃ t, exec (.socFlashCommand command) s = .next t ∧
      t = { s with port := t.port, pins := t.pins } ∧
      t.port = if onlyFill (s.accesses command) = true then
          { s.port with soc := some ⟨command, .answered (s.accesses command)⟩ }
        else if s.port.side = .idle then
          { s.port with side := .soc, soc := some ⟨command, .forwarded (s.accesses command)⟩ }
        else { s.port with soc := some ⟨command, .waiting (s.accesses command)⟩ }) ∧
  (∀ (s : State) (command : FlashCommand) (accesses : List FlashAccess), s.powered = true → s.held = false →
    s.port.side = .idle → s.port.soc = some ⟨command, .waiting accesses⟩ →
    ∃ t, exec .socFlashForward s = .next t ∧ t = { s with port := t.port, pins := t.pins } ∧
      t.port = { s.port with side := .soc, soc := some ⟨command, .forwarded accesses⟩ }) ∧
  (∀ (s : State) (command : FlashCommand) (accesses : List FlashAccess) (ready : Bool), s.powered = true →
    s.port.soc = some ⟨command, .forwarded accesses⟩ →
    ∃ t, exec (.socFlashCsRise ready) s = .next t ∧ t = { s with port := t.port, pins := t.pins } ∧
      t.port = { s.port with
        soc := none, side := .idle
        busy := match command with
          | .program _ | .erase _ _ | .eraseDevice => true
          | .status => s.port.busy && !ready
          | .read _ _ | .other => s.port.busy }) ∧
  (∀ (s : State) (tr : SocTransaction) (ready : Bool), s.powered = true → s.port.soc = some tr →
    (∀ accesses, tr.standing ≠ .forwarded accesses) →
    ∃ t, exec (.socFlashCsRise ready) s = .next t ∧ t = { s with port := { s.port with soc := none }, pins := t.pins }) ∧
  (∀ (s : State) (l : Layout) (m : Mapping) (address length : Nat), s.kept.layout = some l → s.port.mapping = some m →
    0 < length → 0 < l.bankSize →
    (∀ bank, m.booted = .bank bank → address + length ≤ l.bankSize →
      s.accesses (.read address length) = [.read ((match bank with | .a => 0 | .b => l.bankSize) + address) length]) ∧
    (m.booted = .recovery → l.recoverySize ≤ l.bankSize → address + length ≤ l.recoverySize →
      s.accesses (.read address length) = [.read (2 * l.bankSize + address) length]) ∧
    (m.booted = .recovery → l.recoverySize ≤ address → address + length ≤ l.bankSize →
      s.accesses (.read address length) = [.fill length]) ∧
    (l.bankSize ≤ address → address + length ≤ 2 * l.bankSize →
      s.accesses (.read address length) =
        [.read ((match m.staging with | .a => 0 | .b => l.bankSize) + (address - l.bankSize)) length]) ∧
    (2 * l.bankSize ≤ address → s.accesses (.read address length) = [.read address length])) ∧
  (∀ (s : State) (l : Layout) (booted staging : Bank) (address length : Nat), s.kept.layout = some l →
    s.port.mapping = some ⟨.bank booted, staging⟩ →
    (address < l.bankSize → l.bankSize < address + length → address + length ≤ 2 * l.bankSize →
      s.accesses (.read address length) =
        [.read ((match booted with | .a => 0 | .b => l.bankSize) + address) (l.bankSize - address),
          .read (match staging with | .a => 0 | .b => l.bankSize) (address + length - l.bankSize)]) ∧
    (l.bankSize ≤ address → address < 2 * l.bankSize → 2 * l.bankSize < address + length →
      s.accesses (.read address length) =
        [.read ((match staging with | .a => 0 | .b => l.bankSize) + (address - l.bankSize)) (2 * l.bankSize - address),
          .read (2 * l.bankSize) (address + length - 2 * l.bankSize)])) ∧
  (∀ (s : State) (l : Layout) (m : Mapping) (address length : Nat), s.kept.layout = some l → s.port.mapping = some m →
    0 < length →
    (s.accesses (.read address length)).flatMap FlashAccess.bytes =
      (List.range length).map fun k => l.mapped m (address + k))

/-! ## The message link (chapter 10) -/

/-- A transaction that is empty, of the sync byte alone, or begun while the SoC is held changes nothing but what LINK_DO
has sent: FF for each byte of one begun in a hold, EE otherwise (R167); so does a request frame that began in IDLE and
in which SOC_HOLD was asserted, with FF from then on (R175). A request frame that begins while the link is SERVING is an
overrun: the counter rises by one, saturating at 255, OVERRUN is raised, EE is sent for each byte, and the request in
service, the reply held, the bad-frame run and everything else stand (R173). Which moment of the link a transaction
began in, and that one cut by a hold is an overrun all the same, are the model's (log entry 10), and that a frame cut by
a hold sends FF for the rest as a poll does (log entry 9). -/
def Obligations.IgnoredAndOverrunFramesLeaveTheRequest : Prop :=
  (∀ (s : State) (received : Bytes) (b : Began) (m : LinkMoment), s.powered = true → s.whenBegan b = some m →
    m.held = true →
    ∃ t, exec (.linkTransactionIgnored ⟨received, b⟩) s = .next t ∧ t = { s with pins := t.pins } ∧
      t.pins.linkDo = List.replicate received.length 0xFF) ∧
  (∀ (s : State) (received : Bytes) (b : Began) (m : LinkMoment), s.powered = true → s.whenBegan b = some m →
    m.held = false → s.heldSince b = false → received = [] ∨ received = [0xA5] →
    ∃ t, exec (.linkTransactionIgnored ⟨received, b⟩) s = .next t ∧ t = { s with pins := t.pins } ∧
      t.pins.linkDo = List.replicate received.length 0xEE) ∧
  (∀ (s : State) (rest : Bytes) (b : Began) (m : LinkMoment), s.powered = true → s.whenBegan b = some m →
    m.held = false → m.state = .idle → s.heldSince b = true → rest ≠ [] → b.beforeHold ≤ rest.length + 1 →
    ∃ t, exec (.linkTransactionIgnored ⟨0xA5 :: rest, b⟩) s = .next t ∧ t = { s with pins := t.pins } ∧
      t.pins.linkDo = List.replicate b.beforeHold 0xEE ++ List.replicate (rest.length + 1 - b.beforeHold) 0xFF) ∧
  (∀ (s : State) (rest : Bytes) (b : Began) (m : LinkMoment), s.powered = true → s.whenBegan b = some m →
    m.held = false → m.state ≠ .idle → rest ≠ [] →
    ∃ t, exec (.overrun ⟨0xA5 :: rest, b⟩) s = .next t ∧
      t = { s with
        link := { s.link with
          overruns := min (s.link.overruns + 1) 255, flags := s.link.flags ||| Flag.overrun.set }
        pins := t.pins } ∧
      (s.heldSince b = false → t.pins.linkDo = List.replicate (rest.length + 1) 0xEE))

/-- A request frame that is read and fails at the frame level: a frame too short or with a wrong CRC is answered
BAD_FRAME and one with a wrong length BAD_LENGTH, to FF, with the bad-frame run raised; an unknown code is answered
UNKNOWN_REQUEST with the run cleared; a frame that reaches its limit is discarded with LINK_ERROR, the run raised and
the link left IDLE. A raise from 7 to 8 is, beside this, the condition event FRAME_ERROR_BURST: the fire counts of the
matching entries rise, and REACTION is raised where one matches (R169, R170, R174, R160); its HOLD_SOC action is part of
the statement on that action. -/
def Obligations.FramesThatFailAreRefused : Prop :=
  (∀ (s : State) (body crc : Bytes), s.powered = true → s.held = false → s.link.state = .idle → s.link.badRun ≠ 7 →
    crc.length = 2 → 4 ≤ body.length → crc ≠ crcBytes body →
    ∃ t, exec (.badFrame (0xA5 :: (body ++ crc))) s = .next t ∧ t.Answers 0xFF .badFrame [] ∧
      t.link.badRun = min (s.link.badRun + 1) 255 ∧ t.link.flags = s.link.flags ∧ t.gate = s.gate ∧ t.kept = s.kept ∧
      t.store = s.store ∧ t.ism = s.ism) ∧
  (∀ (s : State) (received : Bytes), s.powered = true → s.held = false → s.link.state = .idle → s.link.badRun ≠ 7 →
    received.length < 6 → received ≠ [] →
    ∃ t, exec (.badFrame (0xA5 :: received)) s = .next t ∧ t.Answers 0xFF .badFrame [] ∧
      t.link.badRun = min (s.link.badRun + 1) 255) ∧
  (∀ (s : State) (code identity : Byte) (declared : Nat) (payload : Bytes), s.powered = true → s.held = false →
    s.link.state = .idle → declared < 65536 →
    ∃ t, exec (.badFrame (0xA5 :: ((code :: identity :: (le16 declared ++ payload)) ++
        crcBytes (code :: identity :: (le16 declared ++ payload))))) s = .next t ∧
      if declared ≠ payload.length ∨ 1024 < declared then
        s.link.badRun ≠ 7 → t.Answers 0xFF .badLength [] ∧ t.link.badRun = min (s.link.badRun + 1) 255 ∧ t.gate = s.gate
      else Req.ofCode code = none → t.Answers 0xFF .unknownRequest [] ∧ t.link.badRun = 0 ∧ t.gate = s.gate) ∧
  (∀ (s : State) (received : Bytes) (elapsed : Nat), s.powered = true → s.held = false → s.link.state = .idle →
    s.link.badRun ≠ 7 → 1 ≤ received.length →
    1000 + 10 * ((if received.length < 4 then 1024 else min 1024 (number (slice 2 2 received))) + 7) ≤ elapsed →
    ∃ t, exec (.frameTimeout (0xA5 :: received) elapsed) s = .next t ∧
      t.link = { s.link with
        flags := s.link.flags ||| Flag.linkError.set, badRun := min (s.link.badRun + 1) 255 } ∧
      t.gate = s.gate ∧ t.kept = s.kept ∧ t.store = s.store ∧ t.ism = s.ism) ∧
  (∀ (s : State) (c : Instr) (status : Option Status), s.powered = true → s.held = false → s.link.state = .idle →
    s.link.badRun = 7 → .holdSoc ∉ s.actionsOf (s.matching .frameErrorBurst 0) →
    (∃ body crc, c = .badFrame (0xA5 :: (body ++ crc)) ∧ crc.length = 2 ∧ 4 ≤ body.length ∧ crc ≠ crcBytes body ∧
        status = some .badFrame) ∨
      (∃ (code identity : Byte) (declared : Nat) (payload : Bytes), declared < 65536 ∧
        (declared ≠ payload.length ∨ 1024 < declared) ∧
        c = .badFrame (0xA5 :: ((code :: identity :: (le16 declared ++ payload)) ++
          crcBytes (code :: identity :: (le16 declared ++ payload)))) ∧ status = some .badLength) ∨
      (∃ received elapsed, c = .frameTimeout (0xA5 :: received) elapsed ∧ 1 ≤ received.length ∧
        frameLimit (0xA5 :: received) ≤ elapsed ∧ status = none) →
    ∃ t, exec c s = .next t ∧ t.link.badRun = 8 ∧ t.reactions.counts = s.raisedCounts .frameErrorBurst 0 ∧
      t.gate = s.gate ∧ t.kept = s.kept ∧ t.ism = s.ism ∧
      match status with
      | some refusal => t.Answers 0xFF refusal [] ∧ t.link.flags = s.link.flags ||| s.reactionFlag .frameErrorBurst 0
      | none => t.link.state = .idle ∧ t.link.reply = s.link.reply ∧
          t.link.flags = s.link.flags ||| Flag.linkError.set ||| s.reactionFlag .frameErrorBurst 0)

/-- A poll that begins while the reply is READY receives the frame from its first byte and then FF. The reply is taken,
and the link is IDLE, exactly when the poll has clocked every byte of the frame; a shorter poll leaves it READY. The
taking is reported to the Boot Gate, which ends the boot where a reboot is pending and otherwise does nothing. A poll
that begins in IDLE or with the reply NOT_READY receives EE and then FF and changes nothing, and a reply that becomes
ready in it stays for the next poll (R172). A poll that began with the SoC held receives FF alone, and one in which
SOC_HOLD is asserted FF from then on; neither takes a reply (R167, R175). That a poll in which SOC_HOLD is asserted
after its last byte takes no reply either is open in R167 and R172: the model's choice (log entry 51). A start of
measurement is BootEnded of Safety.lean, as in the statement on starts of measurement (log entries 14, 36, 41 and 55).
Which moment of the link a poll began in is told by its operand (log entry 10, the model's). -/
def Obligations.PollTakesTheReplyWhole : Prop :=
  (∀ (s : State) (b : Began) (r : Reply) (n : Nat), s.powered = true → s.whenBegan b = some ⟨false, .ready, some r⟩ →
    s.heldSince b = false →
    ∃ t, exec (.poll ⟨n, b⟩) s = .next t ∧
      t.pins.linkDo = (r.frame ++ List.replicate (n - r.frame.length) 0xFF).take n ∧
      if r.frame.length ≤ n then
        if s.gate.rebootPending = true then BootEnded false s t
        else t = { s with link := { s.link with state := .idle, reply := none }, pins := t.pins }
      else t = { s with pins := t.pins }) ∧
  (∀ (s : State) (b : Began) (m : LinkMoment) (n : Nat), s.powered = true → s.whenBegan b = some m → m.held = false →
    m.state ≠ .ready → s.heldSince b = false → 0 < n →
    ∃ t, exec (.poll ⟨n, b⟩) s = .next t ∧ t = { s with pins := t.pins } ∧
      t.pins.linkDo = 0xEE :: List.replicate (n - 1) 0xFF) ∧
  (∀ (s : State) (b : Began) (m : LinkMoment) (n : Nat), s.powered = true → s.whenBegan b = some m →
    m.held = true ∨ s.heldSince b = true → b.beforeHold ≤ n →
    ∃ t, exec (.poll ⟨n, b⟩) s = .next t ∧ t = { s with pins := t.pins } ∧ t.pins.linkDo.length = n ∧
      (m.held = true → t.pins.linkDo = List.replicate n 0xFF) ∧
      (m.held = false → ∀ i byte, b.beforeHold ≤ i → t.pins.linkDo[i]? = some byte → byte = 0xFF) ∧
      (∀ r, m = ⟨false, .ready, some r⟩ → ∀ i < b.beforeHold, i < r.frame.length →
        t.pins.linkDo[i]? = r.frame[i]?))

/-- Steps 4 to 6 of the check order, on the request IDENTIFY for 4 and 5 and on every request with a right for 6: an
identity above 7 or not enabled is refused IDENTITY_DISABLED, a stage above the identity's ceiling STAGE_CLOSED, neither
of them admitted, and a request without its right NOT_PERMITTED, admitted; each right of R170 is met, ADMIN or OWNER,
ADMIN, UPDATE, UPDATE or ADMIN, and OWNER, with whatever payload. SET PARAMETER is checked at step 6 too: a payload that
names no parameter is BAD_ARGUMENT, and a parameter of the Boot Gate needs ADMIN and one of the vault OWNER (R180). Each
clears the bad-frame run (R170, R26). A frame while the link is SERVING is an overrun, and one while the SoC is held is
ignored (R167). -/
def Obligations.ChecksFourToSixRefuseInOrder : Prop :=
  (∀ (s : State) (identity : Byte), s.powered = true → s.held = false → s.link.state = .idle →
    (7 < identity.toNat ∨ (∃ r, s.requester identity.toNat = some r ∧ r.enabled = false) →
      ∃ t, exec (.identify identity []) s = .next t ∧
        t.Answers (if identity.toNat ≤ 7 then identity else 0xFF) .identityDisabled [] ∧ t.link.badRun = 0 ∧
        t.gate = s.gate ∧ t.kept = s.kept ∧ t.ism = s.ism ∧ t.store = s.store) ∧
    (∀ r, s.requester identity.toNat = some r → r.enabled = true → r.ceiling.number < s.ism.stage.number →
      ∃ t, exec (.identify identity []) s = .next t ∧ t.Answers identity .stageClosed [] ∧ t.link.badRun = 0 ∧
        t.gate = s.gate ∧ t.kept = s.kept ∧ t.ism = s.ism ∧ t.store = s.store)) ∧
  (∀ (s : State) (identity : Byte) (payload : Bytes) (c : Instr), s.Hears identity payload →
    (c ∈ [.keyGenerate identity payload, .keyImport identity payload, .keyRestrict identity payload,
        .keyRetire identity payload, .keyErase identity payload, .blobWrite identity payload] ∧
      s.hasRight identity.toNat rightAdmin = false ∧ s.hasRight identity.toNat rightOwner = false) ∨
    (c ∈ [.requesterWrite identity payload, .reactionWrite identity payload, .patternWrite identity payload] ∧
      s.hasRight identity.toNat rightAdmin = false) ∨
    (c ∈ [.verifyStaged identity payload, .abortImage identity payload, .armTrial identity payload,
        .confirmImage identity payload] ∧ s.hasRight identity.toNat rightUpdate = false) ∨
    (c = .rebootRouter identity payload ∧ s.hasRight identity.toNat rightUpdate = false ∧
      s.hasRight identity.toNat rightAdmin = false) ∨
    (c ∈ [.vaultClaim identity payload, .credEnroll identity payload, .credRemove identity payload,
        .ownerReset identity payload] ∧ s.hasRight identity.toNat rightOwner = false) →
    ∃ t, exec c s = .next t ∧ Replies s identity .notPermitted [] t) ∧
  (∀ (s : State) (identity : Byte), s.Hears identity [] →
    ∃ t, exec (.setParameter identity []) s = .next t ∧ Replies s identity .badArgument [] t) ∧
  (∀ (s : State) (identity code : Byte) (rest : Bytes), s.Hears identity (code :: rest) →
    ∃ t, exec (.setParameter identity (code :: rest)) s = .next t ∧
      match Param.ofCode code with
      | none => Replies s identity .badArgument [] t
      | some (.boot _) => s.hasRight identity.toNat rightAdmin = false → Replies s identity .notPermitted [] t
      | some (.vault _) => s.hasRight identity.toNat rightOwner = false → Replies s identity .notPermitted [] t) ∧
  (∀ (s : State) (identity : Byte) (payload : Bytes), s.powered = true → s.held = true →
    ∃ t, exec (.identify identity payload) s = .next t ∧ t = { s with pins := t.pins } ∧
      t.pins.linkDo = List.replicate (payload.length + 7) 0xFF) ∧
  (∀ (s : State) (identity : Byte) (payload : Bytes), s.powered = true → s.held = false → s.link.state ≠ .idle →
    ∃ t, exec (.identify identity payload) s = .next t ∧
      t = { s with
        link := { s.link with
          overruns := min (s.link.overruns + 1) 255, flags := s.link.flags ||| Flag.overrun.set }
        pins := t.pins })

/-! ## The Owner Vault (chapter 7) -/

/-- The requests on the owner's records: CRED ENROLL in a CLAIMED vault hands a SECRET's record to the store, or digests
a VERIFIER's passphrase under the vault key first (R132, R127); VAULT CLAIM, OWNER RESET and a CRED REMOVE that needs
presence consume the open window in the event in which they are taken and are refused NO_PRESENCE without it, leaving it
as it was; a FACTORY record is not removed, and a label that is none or that no record carries is BAD_ARGUMENT (R128,
R129, R131, R142, R143). A claim makes the vault CLAIMED with the owner tag carried; a removed record is not present,
with no penalty deadline, and every other is kept; a failed removal leaves the record (R131, R142). A new record's
write, when it completes, puts it at the lowest index that is not present, or a FACTORY record over the one of its
label, with no penalty deadline and its decay clock at the present second, which is that of this completion (log entry
58, the model's), and is answered with the index (R132, R186); a label that is no longer free is refused LABEL_TAKEN
(that this is tested at the completion is log entry 46, the model's). -/
def Obligations.OwnerRequestsEnrolClaimRemoveAndReset : Prop :=
  (∀ (r : Records) (tag : BitVec 32), r.vault.claimed = false →
    r.apply (.vaultClaim tag) = { r with vault := { r.vault with claimed := true, ownerTag := tag } }) ∧
  (∀ (s : State) (p : Place) (c : Credential), s.powered = true → s.gate.selection = .idle →
    s.store.making = some ⟨.credRemove p, .reply []⟩ → s.kept.credAt p = some c →
    (∃ t, exec .storeWriteComplete s = .next t ∧ t.kept.cred p.index = none ∧
      (∀ j, j ≠ p.index → t.kept.cred j = s.kept.cred j ∧ t.vault.penaltyOf j = s.vault.penaltyOf j) ∧
      t.kept = { s.kept with creds := t.kept.creds, credLives := t.kept.credLives } ∧
      t.vault.penaltyOf p.index = none ∧ t.vault.decay = s.vault.decay ∧ t.Answers s.asker .ok []) ∧
    (∃ t, exec .storeWriteFailed s = .next t ∧ t.kept = s.kept ∧ t.vault.penalty = s.vault.penalty ∧
      t.Answers s.asker .storeFault [])) ∧
  (∀ (s : State) (record : Credential), s.powered = true → s.gate.selection = .idle →
    s.store.making = some ⟨.credPut record, .replyIndex record.label⟩ →
    (record.credClass = .owner → s.kept.vault.claimed = true) →
    (∀ i : Nat, (s.kept.findCred record.label = none ∧ s.kept.freeCred = some i) ∨
        (∃ c, s.kept.findCred record.label = some (i, c) ∧ c.credClass ≠ .owner ∧ record.credClass ≠ .owner) →
      ∃ t, exec .storeWriteComplete s = .next t ∧ t.kept.cred i = some record ∧
        (∀ j, j ≠ i → t.kept.cred j = s.kept.cred j) ∧ t.vault.penaltyOf i = none ∧ t.vault.clockOf i = s.second ∧
        t.Answers s.asker .ok [byteOf i]) ∧
    (∀ (i : Nat) (c : Credential), s.kept.findCred record.label = some (i, c) →
      c.credClass = .owner ∨ record.credClass = .owner →
      ∃ t, exec .storeWriteComplete s = .next t ∧ t.kept = s.kept ∧ t.Answers s.asker .labelTaken []) ∧
    (∃ t, exec .storeWriteFailed s = .next t ∧ t.kept = s.kept ∧ t.Answers s.asker .storeFault [])) ∧
  ∀ (s : State) (identity : Byte), s.hasRight identity.toNat rightOwner = true → s.vault.free = true →
    (∀ (payload : Bytes) (f : CredForm), s.Hears identity payload → readCredForm payload = some f →
      f.wellFormed = true → s.kept.findCred f.label = none → s.kept.freeCred ≠ none → s.kept.vault.claimed = true →
      ∃ t, exec (.credEnroll identity payload) s = .next t ∧
        if f.kind = some .secret then
          Hands s .credEnroll identity payload (.credPut (f.record .owner f.value s.ism)) (.replyIndex f.label) s.biu t
        else Digests s .credEnroll identity payload (some s.kept.vaultKey) (f.label ++ [0] ++ f.value) (.enrolling f)
          s.biu t) ∧
    (∀ payload : Bytes, s.Hears identity payload → payload.length = 4 → number payload ≠ 0 →
      s.kept.vault.claimed = false →
      ∃ t, exec (.vaultClaim identity payload) s = .next t ∧
        if s.biu.window.isSome = true then
          Hands s .vaultClaim identity payload (.vaultClaim (BitVec.ofNat 32 (number payload))) (.reply payload)
            s.biu.consumed t
        else Replies s identity .noPresence [] t) ∧
    (∀ (label : Bytes) (i : Nat) (c : Credential), s.Hears identity (byteOf label.length :: label) → s.Names label i c →
      ∃ t, exec (.credRemove identity (byteOf label.length :: label)) s = .next t ∧
        if c.credClass ≠ .owner then Replies s identity .notPermitted [] t
        else if c.presence = true ∧ s.biu.window = none then Replies s identity .noPresence [] t
        else Hands s .credRemove identity (byteOf label.length :: label) (.credRemove (s.kept.credPlace i)) (.reply [])
          (if c.presence = true then s.biu.consumed else s.biu) t) ∧
    (∀ (label : Bytes) (status : Status), label.length < 256 → s.Hears identity (byteOf label.length :: label) →
      s.credFailure identity.toNat label (fun _ => true) false false = some status →
      ∃ t, exec (.credRemove identity (byteOf label.length :: label)) s = .next t ∧ Replies s identity status [] t) ∧
    (s.Hears identity [] →
      ∃ t, exec (.ownerReset identity []) s = .next t ∧
        if s.biu.window.isSome = true then
          Hands s .ownerReset identity [] .ownerReset (.resetDone true) s.biu.consumed t ∧ t.vault.holder = some .reset
        else Replies s identity .noPresence [] t)

/-- The requests on a credential by its answer set: CRED CHECK is answered WAIT while the uptime second is below the
penalty deadline, with the seconds left and nothing charged, and is otherwise charged in a store write before any
comparison (R134); CRED RETRIEVE returns the value of a SECRET whose seal matches, with no charge (R139); CRED CHANGE
with the old passphrase is charged as a check is, with the window that the record asks for consumed; without it, it
consumes the window and digests the new one; and on a SECRET it writes the new value, with the window consumed where the
record asks for presence and NO_PRESENCE without it (R140, R141, R129). The first check of R128 that fails gives the
reply, and nothing changes: BAD_ARGUMENT for a label that is none or that no record carries, another kind, or a length
that the request does not allow, NOT_PERMITTED for a requester outside the answer set, and for CRED RETRIEVE
BINDING_MISMATCH of the seal; CRED CHANGE of a SECRET without the OWNER right is NOT_PERMITTED after them (R128, R141).
A written value replaces the old one, sets changed of a FACTORY record to whether it differs from the factory copy, and
keeps the rest; a VERIFIER's also clears the failure count and the penalty deadline, and without the old passphrase sets
the decay clock to the second of the completion (log entry 58, the model's; R140, R141). A failed write leaves the
value, the count, the clock and the penalty deadline, the deadline also after an old passphrase that matched: R135
clears it for a CRED CHECK and R140 is silent, so that is the model's (log entry 28). The count before the charge,
handed over with it, is log entry 42, and that the window is tested before the penalty log entry 48, the model's. -/
def Obligations.CredentialRequestsChargeRetrieveAndChange : Prop :=
  (∀ (s : State) (p : Place) (c : Credential) (value : Bytes) (clear restart : Bool), s.powered = true →
    s.gate.selection = .idle → s.store.making = some ⟨.credValue p value clear restart, .reply []⟩ →
    s.kept.credAt p = some c →
    (∃ t, exec .storeWriteComplete s = .next t ∧
      t.kept.cred p.index = some { c with
        value := value
        failures := if clear = true then 0 else c.failures
        credClass := match c.credClass with
          | .factory copy _ => .factory copy (decide (value ≠ copy))
          | .owner => .owner } ∧
      (∀ j, j ≠ p.index → t.kept.cred j = s.kept.cred j ∧ t.vault.penaltyOf j = s.vault.penaltyOf j ∧
        t.vault.clockOf j = s.vault.clockOf j) ∧
      t.kept = { s.kept with creds := t.kept.creds } ∧
      t.vault.penaltyOf p.index = (if clear = true then none else s.vault.penaltyOf p.index) ∧
      t.vault.clockOf p.index = (if restart = true then s.uptime / 1000 else s.vault.clockOf p.index) ∧
      t.Answers s.asker .ok []) ∧
    (∃ t, exec .storeWriteFailed s = .next t ∧ t.kept = s.kept ∧ t.vault.penalty = s.vault.penalty ∧
      t.vault.decay = s.vault.decay ∧ t.Answers s.asker .storeFault [] ∧
      t.link.flags = s.link.flags ||| Flag.storeFault.set)) ∧
  (∀ (s : State) (identity : Byte) (label : Bytes) (status : Status), s.vault.free = true → label.length < 256 →
    (∀ candidate : Bytes, s.Hears identity (byteOf label.length :: (label ++ candidate)) →
      s.credFailure identity.toNat label
        (fun kind => kind == .verifier && decide (1 ≤ candidate.length) && decide (candidate.length ≤ 128)) true false =
          some status →
      ∃ t, exec (.credCheck identity (byteOf label.length :: (label ++ candidate))) s = .next t ∧
        Replies s identity status [] t) ∧
    (s.Hears identity (byteOf label.length :: label) →
      s.credFailure identity.toNat label (· == .secret) true true = some status →
      ∃ t, exec (.credRetrieve identity (byteOf label.length :: label)) s = .next t ∧ Replies s identity status [] t) ∧
    (∀ new old : Bytes, new.length < 256 → old.length < 256 →
      s.Hears identity (byteOf label.length :: (label ++ (byteOf new.length :: (new ++ (byteOf old.length :: old))))) →
      s.credFailure identity.toNat label (changeFits new old) true false = some status →
      ∃ t, exec (.credChange identity
          (byteOf label.length :: (label ++ (byteOf new.length :: (new ++ (byteOf old.length :: old)))))) s = .next t ∧
        Replies s identity status [] t) ∧
    (∀ (new : Bytes) (i : Nat) (c : Credential),
      s.Hears identity (byteOf label.length :: (label ++ (byteOf new.length :: (new ++ [0])))) →
      s.credFailure identity.toNat label (changeFits new []) true false = none → s.Names label i c → c.kind = .secret →
      s.hasRight identity.toNat rightOwner = false →
      ∃ t, exec (.credChange identity (byteOf label.length :: (label ++ (byteOf new.length :: (new ++ [0]))))) s =
          .next t ∧ Replies s identity .notPermitted [] t)) ∧
  ∀ (s : State) (identity : Byte) (label : Bytes) (i : Nat) (c : Credential), s.vault.free = true →
    s.Names label i c → inSet c.answerSet identity.toNat = true →
    (∀ candidate : Bytes, c.kind = .verifier → 1 ≤ candidate.length → candidate.length ≤ 128 →
      s.Hears identity (byteOf label.length :: (label ++ candidate)) →
      ∃ t, exec (.credCheck identity (byteOf label.length :: (label ++ candidate))) s = .next t ∧
        if s.uptime / 1000 < (s.vault.penaltyOf i).getD 0 then
          Replies s identity .wait (le32 ((s.vault.penaltyOf i).getD 0 - s.uptime / 1000)) t
        else Hands s .credCheck identity (byteOf label.length :: (label ++ candidate)) (.credCharge (s.kept.credPlace i) (s.uptime / 1000))
          (.compare (s.kept.credPlace i) c.failures candidate none) s.biu t) ∧
    (c.kind = .secret → s.Hears identity (byteOf label.length :: label) →
      ∃ t, exec (.credRetrieve identity (byteOf label.length :: label)) s = .next t ∧
        if s.ism.bindingMatches c.sealing = true then Replies s identity .ok (byteOf c.value.length :: c.value) t
        else Replies s identity .bindingMismatch [] t) ∧
    (∀ new : Bytes, c.kind = .verifier → 1 ≤ new.length → new.length ≤ 128 →
      s.Hears identity (byteOf label.length :: (label ++ (byteOf new.length :: (new ++ [0])))) →
      ∃ t, exec (.credChange identity (byteOf label.length :: (label ++ (byteOf new.length :: (new ++ [0]))))) s =
          .next t ∧
        if s.biu.window.isSome = true then
          Digests s .credChange identity (byteOf label.length :: (label ++ (byteOf new.length :: (new ++ [0]))))
            (some s.kept.vaultKey) (c.label ++ [0] ++ new) (.changing (s.kept.credPlace i) false) s.biu.consumed t
        else Replies s identity .noPresence [] t) ∧
    (∀ new : Bytes, c.kind = .secret → 8 ≤ new.length → new.length ≤ 64 → s.hasRight identity.toNat rightOwner = true →
      s.Hears identity (byteOf label.length :: (label ++ (byteOf new.length :: (new ++ [0])))) →
      ∃ t, exec (.credChange identity (byteOf label.length :: (label ++ (byteOf new.length :: (new ++ [0]))))) s =
          .next t ∧
        if c.presence = true ∧ s.biu.window = none then Replies s identity .noPresence [] t
        else Hands s .credChange identity (byteOf label.length :: (label ++ (byteOf new.length :: (new ++ [0]))))
          (.credValue (s.kept.credPlace i) new false false) (.reply []) (if c.presence = true then s.biu.consumed else s.biu) t) ∧
    (∀ new old : Bytes, c.kind = .verifier → 1 ≤ new.length → new.length ≤ 128 → 1 ≤ old.length → old.length ≤ 128 →
      s.Hears identity (byteOf label.length :: (label ++ (byteOf new.length :: (new ++ (byteOf old.length :: old))))) →
      ∃ t, exec (.credChange identity
          (byteOf label.length :: (label ++ (byteOf new.length :: (new ++ (byteOf old.length :: old)))))) s = .next t ∧
        if c.presence = true ∧ s.biu.window = none then Replies s identity .noPresence [] t
        else if s.uptime / 1000 < (s.vault.penaltyOf i).getD 0 then
          Replies s identity .wait (le32 ((s.vault.penaltyOf i).getD 0 - s.uptime / 1000)) t
        else Hands s .credChange identity
          (byteOf label.length :: (label ++ (byteOf new.length :: (new ++ (byteOf old.length :: old)))))
          (.credCharge (s.kept.credPlace i) (s.uptime / 1000)) (.compare (s.kept.credPlace i) c.failures old (some new))
          (if c.presence = true then s.biu.consumed else s.biu) t)

/-- A charge that has been written raises the count by one up to 15, sets the decay clock to the second of the attempt,
and then has the candidate's value computed; where the write fails nothing is evaluated (R134). The computed value is
compared: a match hands the clearing of the count to the store, or for CRED CHANGE has the new passphrase's value
computed (R135, R140); the completion of that clearing makes the count 0 and the deadline absent, and its failure keeps
the count and takes the deadline all the same (R135). A record removed by then, be its place taken anew, is answered
BAD_ARGUMENT (log entry 53, the model's). A mismatch sets the deadline from the second of the charge, is answered
NO_MATCH with d(f) and f, raises PENALTY where the count first goes above VAULT_FREE, and is the condition event
PENALTY_LEVEL with f, which fires the matching entries and raises REACTION where one matches (R135, R160); a HOLD_SOC
among its actions ends the boot, which drops the reply (R83; what a start of measurement clears and leaves is
BootStopped of Safety.lean, R67, with log entries 14, 36, 41 and 55, the model's). The penalty d(f) is exact: 0 up to
VAULT_FREE, and then VAULT_BASE doubled for each further failure, or VAULT_CAP if that is less (R133); the parameters
are those at the comparison (log entry 49, the model's). -/
def Obligations.ComparisonClearsOrPenalizes : Prop :=
  (∀ (s : State) (p : Place) (second before : Nat) (c : Credential) (candidate : Bytes) (newValue : Option Bytes),
    s.powered = true → s.gate.selection = .idle →
    s.store.making = some ⟨.credCharge p second, .compare p before candidate newValue⟩ → s.kept.credAt p = some c →
    (∃ t, exec .storeWriteComplete s = .next t ∧
      t.kept.cred p.index = some { c with failures := min (c.failures + 1) 15 } ∧ t.vault.clockOf p.index = second ∧
      t.vault.penalty = s.vault.penalty ∧ t.link = { s.link with service := .comparing p before newValue } ∧
      t.digest = s.digest.beginLink (some s.kept.vaultKey) (c.label ++ [0] ++ candidate)) ∧
    (∃ t, exec .storeWriteFailed s = .next t ∧ t.kept = s.kept ∧ t.vault.penalty = s.vault.penalty ∧
      t.vault.decay = s.vault.decay ∧ t.Answers s.asker .storeFault [])) ∧
  (∀ (s : State) (p : Place) (before : Nat) (newValue : Option Bytes) (c : Credential), s.LinkFinishes →
    s.link.service = .comparing p before newValue → s.kept.credAt p = some c → s.linkDigest = c.value →
    ∃ t, exec .deBlockAbsorbed s = .next t ∧ t.kept = s.kept ∧ t.gate = s.gate ∧ t.ism = s.ism ∧ t.biu = s.biu ∧
      t.vault = s.vault ∧
      match newValue with
      | none => t.link = s.link ∧
          t.store = { s.store with waiting := s.store.waiting ++ [⟨.credMatch p, .reply []⟩] }
      | some new => t.link = { s.link with service := .changing p true } ∧ t.store = s.store ∧
          t.digest = ((s.digest.absorbed ⟨.link, false⟩).beginLink (some s.kept.vaultKey)
            (c.label ++ [0] ++ new)).takeBlock) ∧
  (∀ (s : State) (p : Place) (before : Nat) (newValue : Option Bytes) (c : Credential), s.LinkFinishes →
    s.link.service = .comparing p before newValue → s.kept.credAt p = some c → s.linkDigest ≠ c.value →
    ∃ t, exec .deBlockAbsorbed s = .next t ∧ t.kept = s.kept ∧
      t.vault.penaltyOf p.index = (if penalty s.kept.vault c.failures = 0 then none
        else some (s.vault.clockOf p.index + penalty s.kept.vault c.failures)) ∧
      t.vault.decay = s.vault.decay ∧ t.reactions.counts = s.raisedCounts .penaltyLevel c.failures ∧
      (.holdSoc ∉ s.actionsOf (s.matching .penaltyLevel c.failures) →
        t.gate = s.gate ∧ t.ism = s.ism ∧
        t.Answers s.asker .noMatch (le32 (penalty s.kept.vault c.failures) ++ [byteOf c.failures]) ∧
        t.link.flags = s.link.flags |||
          (if s.kept.vault.free < c.failures ∧ before ≤ s.kept.vault.free then Flag.penalty.set else 0) |||
          s.reactionFlag .penaltyLevel c.failures ∧
        t.store = (if .recoveryNext ∈ s.actionsOf (s.matching .penaltyLevel c.failures) then
          { s.store with waiting := s.store.waiting ++ [⟨.recoveryNext true, .reactionWrite false⟩] } else s.store) ∧
        (s.matching .penaltyLevel c.failures = [] →
          t.reactions = s.reactions ∧ t.keys = s.keys ∧ t.biu = s.biu)) ∧
      (.holdSoc ∈ s.actionsOf (s.matching .penaltyLevel c.failures) →
        .recoveryNext ∉ s.actionsOf (s.matching .penaltyLevel c.failures) → s.held = false →
        BootStopped false { s with vault := { s.vault with penalty := t.vault.penalty } } t)) ∧
  (∀ (s : State) (p : Place) (before : Nat) (newValue : Option Bytes), s.LinkFinishes →
    s.link.service = .comparing p before newValue → s.kept.credAt p = none →
    ∃ t, exec .deBlockAbsorbed s = .next t ∧ t.kept = s.kept ∧ t.store = s.store ∧ t.vault.penalty = s.vault.penalty ∧
      t.vault.decay = s.vault.decay ∧ t.reactions = s.reactions ∧ t.Answers s.asker .badArgument []) ∧
  (∀ (s : State) (p : Place) (c : Credential), s.powered = true → s.gate.selection = .idle →
    s.store.making = some ⟨.credMatch p, .reply []⟩ → s.kept.credAt p = some c →
    (∃ t, exec .storeWriteComplete s = .next t ∧ t.kept.cred p.index = some { c with failures := 0 } ∧
      (∀ j, j ≠ p.index → t.kept.cred j = s.kept.cred j ∧ t.vault.penaltyOf j = s.vault.penaltyOf j) ∧
      t.kept = { s.kept with creds := t.kept.creds } ∧ t.vault.penaltyOf p.index = none ∧
      t.vault.decay = s.vault.decay ∧ t.Answers s.asker .ok []) ∧
    (∃ t, exec .storeWriteFailed s = .next t ∧ t.kept = s.kept ∧ t.vault.penaltyOf p.index = none ∧
      t.vault.decay = s.vault.decay ∧ t.Answers s.asker .storeFault [] ∧
      t.link.flags = s.link.flags ||| Flag.storeFault.set)) ∧
  (∀ (v : VaultRecord) (f : Nat),
    (f ≤ v.free → penalty v f = 0) ∧
    (v.free < f → v.base * 2 ^ (f - v.free - 1) ≤ v.cap → penalty v f = v.base * 2 ^ (f - v.free - 1)) ∧
    (v.free < f → v.cap < v.base * 2 ^ (f - v.free - 1) → penalty v f = v.cap))

/-- A decay step that is due while nothing holds the vault, and an owner reset from the Reaction Table whose turn it is,
each hold the vault and hand their write to the store (R136, R144, R145). The model's own: the step is taken also while
the charge of a dropped request is in the store (log entry 50) or other work waits for the vault, of the record that the
command names (log entry 33), and the reset by a command of its own (log entry 18). A vault request (of any right it
holds; which they are is log entry 17) is served at once where the vault is free and nothing waits for it, and holds it
until its reply is made ready, an OWNER RESET as a reset; otherwise it waits, in service and after the work that waits
(R145). A request whose turn it is at the end of a decay step's write or of an owner reset's update is served in that
event, against the records as they then stand (R145), before a due step of another record (log entry 60, the model's),
and no step takes the vault from a request but with its end. The end of the step's write lowers the count by one, or
leaves it where the write failed, and moves the decay clock by the interval under which the step fell due; no other step
being due, the vault is free again (R136, R138). The end of an owner reset's update frees the vault as well: completed,
it clears the penalty deadline and sets the decay clock of every present record, takes the suspension of every OWNER
slot, raises OWNER_RESET and answers a request OK; failed, it leaves all of that with STORE_FAULT. A write to an OWNER
slot that was held back is then checked again: refused WRONG_STATE where it creates and SLOT_EMPTY where it counts on a
slot emptied, and handed to the store where the update failed (R143, R144). -/
def Obligations.DecayAndWaitingResetTakeTheVault : Prop :=
  (∀ (s : State) (request : Bool), s.powered = true → s.gate.selection = .idle →
    s.store.making = some ⟨.ownerReset, .resetDone request⟩ → s.keys.held = none →
    s.vault.waiting.head? ≠ some .request →
    (∃ t, exec .storeWriteComplete s = .next t ∧ t.kept = s.kept.apply .ownerReset ∧
      t.link.flags = s.link.flags ||| Flag.ownerReset.set ∧ t.vault.holder = none ∧
      (∀ i c, i < 16 → s.kept.cred i = some c → t.vault.penaltyOf i = none ∧ t.vault.clockOf i = s.second) ∧
      (∀ i, s.kept.cred i = none →
        t.vault.penaltyOf i = s.vault.penaltyOf i ∧ t.vault.clockOf i = s.vault.clockOf i) ∧
      (∀ i k, s.kept.slot i = some k → k.slotClass = .owner → t.suspended i = false) ∧
      (if request = true then t.Answers s.asker .ok []
        else t.link = { s.link with flags := s.link.flags ||| Flag.ownerReset.set } ∧
          t.vault.waiting = s.vault.waiting) ∧
      t.store = { s.store with making := none } ∧ t.gate = s.gate ∧ t.ism = s.ism ∧ t.biu = s.biu) ∧
    (∃ t, exec .storeWriteFailed s = .next t ∧ t.kept = s.kept ∧
      t.link.flags = s.link.flags ||| Flag.storeFault.set ∧ t.vault.holder = none ∧
      t.vault.penalty = s.vault.penalty ∧ t.vault.decay = s.vault.decay ∧ t.keys = s.keys ∧
      (if request = true then t.Answers s.asker .storeFault [] else t.vault.waiting = s.vault.waiting))) ∧
  (∀ (s : State) (op : StoreOp) (after : After), s.powered = true → s.gate.selection = .idle →
    s.store.making = some ⟨.ownerReset, .resetDone false⟩ → s.keys.held = some ⟨op, after⟩ →
    s.vault.waiting.head? ≠ some .request →
    (∀ item ∈ s.store.waiting, item.op ≠ .ownerReset) →
    (∀ i record, op = .slotPut i record → record.slotClass = .owner →
      (∃ t, exec .storeWriteComplete s = .next t ∧ t.Answers s.asker .wrongState [] ∧ t.keys.held = none ∧
        t.store = { s.store with making := none }) ∧
      (s.kept.vault.claimed = true → ∃ t, exec .storeWriteFailed s = .next t ∧ t.keys.held = none ∧
        t.store = ⟨none, s.store.waiting ++ [⟨op, after⟩]⟩)) ∧
    (∀ p k, op = .slotCount p → s.kept.slotAt p = some k → k.slotClass = .owner → k.state = .active →
      (∃ t, exec .storeWriteComplete s = .next t ∧ t.Answers s.asker .slotEmpty [] ∧ t.keys.held = none ∧
        t.store = { s.store with making := none }) ∧
      (∃ t, exec .storeWriteFailed s = .next t ∧ t.keys.held = none ∧
        t.store = ⟨none, s.store.waiting ++ [⟨op, after⟩]⟩))) ∧
  (∀ (s : State) (i : Nat) (c : Credential), s.powered = true → s.kept.cred i = some c → 0 < c.failures →
    s.vault.clockOf i + s.kept.vault.forgive * 3600 ≤ s.uptime / 1000 → s.vault.holder = none →
    ∃ t, exec (.decayStep i) s = .next t ∧
      t = { s with
        store := { s.store with waiting := s.store.waiting ++ [⟨.credDecay (s.kept.credPlace i) (s.kept.vault.forgive * 3600), .decayed i⟩] }
        vault := { s.vault with holder := some .decay }
        pins := t.pins }) ∧
  (∀ (s : State) (rest : List VaultWork), s.powered = true → s.vault.holder = none → s.vault.waiting = .reset :: rest →
    ∃ t, exec .ownerResetUpdate s = .next t ∧
      t = { s with
        store := { s.store with waiting := s.store.waiting ++ [⟨.ownerReset, .resetDone false⟩] }
        vault := { s.vault with holder := some .reset, waiting := rest }
        pins := t.pins }) ∧
  (∀ (s : State) (p : Place) (interval : Nat) (c : Credential), s.powered = true → s.kept.credAt p = some c →
    s.store.making = some ⟨.credDecay p interval, .decayed p.index⟩ → s.gate.selection = .idle →
    s.vault.waiting.head? ≠ some .request → s.second < s.vault.clockOf p.index + interval + s.kept.vault.forgive * 3600 →
    (∃ t, exec .storeWriteComplete s = .next t ∧
      t.kept.cred p.index = some { c with failures := c.failures - 1 } ∧ t.vault.clockOf p.index = s.vault.clockOf p.index + interval ∧
      t.vault.penalty = s.vault.penalty ∧ t.vault.holder = none ∧ t.vault.waiting = s.vault.waiting ∧ t.link = s.link) ∧
    (∃ t, exec .storeWriteFailed s = .next t ∧
      t.kept = s.kept ∧ t.vault.clockOf p.index = s.vault.clockOf p.index + interval ∧ t.vault.penalty = s.vault.penalty ∧
      t.vault.holder = none ∧ t.vault.waiting = s.vault.waiting ∧
      t.link = { s.link with flags := s.link.flags ||| Flag.storeFault.set })) ∧
  (∀ (s : State) (identity : Byte) (payload : Bytes) (code : Req) (c : Instr), s.Hears identity payload →
    (code, c) ∈ s.vaultRequests identity payload →
    ∃ t, exec c s = .next t ∧
      if s.vault.free = false then Waits s code identity payload t
      else
        t = { (({ s with
          gate := s.admittedGate
          link := { s.link with
            badRun := 0, state := .serving, request := some ⟨code, identity.toNat, payload⟩, service := .none } } :
              State).vaultServes ⟨code, identity.toNat, payload⟩).settle with pins := t.pins } ∧
        (t.link.state = .ready ∧ t.link.request = none ∧ t.vault.holder = none ∨
          t.Serves code identity payload ∧
            t.vault.holder = some (if code = .ownerReset then .reset else .request))) ∧
  (∀ (s : State) (item : StoreItem) (r : Request) (rest : List VaultWork), s.powered = true → s.gate.selection = .idle →
    s.store.making = some item → s.link.request = some r → s.vault.waiting = .request :: rest →
    (item = ⟨.ownerReset, .resetDone false⟩ ∧ s.keys.held = none) ∨
      (∃ p interval c, item = ⟨.credDecay p interval, .decayed p.index⟩ ∧ s.kept.credAt p = some c ∧
        s.second < s.vault.clockOf p.index + interval + s.kept.vault.forgive * 3600) →
    ∀ done ∈ [Instr.storeWriteComplete, .storeWriteFailed], ∃ t u : State, exec done s = .next t ∧
      t = (u.vaultServes r).settle ∧ u.vault.waiting = rest ∧ u.link.request = some r ∧
      u.kept = (if done = .storeWriteComplete then s.kept.apply item.op else s.kept) ∧
      u.store = { s.store with making := none } ∧ u.gate = s.gate ∧ u.ism = s.ism ∧ u.biu = s.biu ∧
      u.uptime = s.uptime) ∧
  (∀ s t : State, step s = .next t → s.vault.holder = some .request →
    (∀ item, s.store.making = some item → (∀ i, item.after ≠ .decayed i) ∧ ∀ request, item.after ≠ .resetDone request) →
    t.vault.holder = some .request ∨ t.link.request = none)

/-! ## Button and indicator (chapter 8) -/

/-- BTN starts the debounce count again with each change of level; after 30 ms at one level the debounced button
follows: a press starts the press timer, untimed where the button was not yet determined; a release ends it, and after a
timed press below 2 s, with no hold fired, opens the window until 30 s from the release, raises PRESENCE_OPEN and gives
an absent window's source its pattern; any other release does nothing more (R148, R149). In FAULT_HOLD with R above 0 a
short press clears the failure count and takes a start of measurement, which closes the window again, in FIELD with
RECOVERY_NEXT handed to the store, and bank selection is to find recovery asked for (R80). What the start clears and
leaves is BootEnded of Safety.lean (R67, R106, R146; log entries 14, 36, 41 and 55, the model's). -/
def Obligations.ButtonIsDebouncedAndTimed : Prop :=
  (∀ (s : State) (pressed : Bool), s.powered = true → s.biu.pressed ≠ pressed →
    ∃ t, exec (.btnLevelChange pressed) s = .next t ∧
      t = { s with biu := { s.biu with pressed := pressed, levelSince := s.uptime }, pins := t.pins }) ∧
  (∀ s : State, s.powered = true → s.biu.pressed = true → s.biu.button ≠ .pressed →
    s.biu.levelSince + 30 ≤ s.uptime →
    ∃ t, exec .debouncedPress s = .next t ∧
      t = { s with
        biu := { s.biu with
          button := .pressed, press := some ⟨s.uptime, false, decide (s.biu.button = .undetermined)⟩ }
        pins := t.pins }) ∧
  (∀ s : State, s.powered = true → s.biu.pressed = false → s.biu.button ≠ .released →
    s.biu.levelSince + 30 ≤ s.uptime → s.gate.state ≠ .faultHold ∨ s.recoverySize = 0 ∨ s.shortPress = false →
    ∃ t, exec .debouncedRelease s = .next t ∧
      if s.biu.press.any (fun p => !p.untimed && !p.holdFired && decide (s.uptime < p.since + 2000)) = true then
        t = { s with
          biu := { s.biu with
            button := .released, press := none, window := some (s.uptime + 30000)
            presence := if s.biu.window.isSome = true then s.biu.presence
              else s.biu.presence.give s.uptime s.kept.presencePattern }
          link := { s.link with flags := s.link.flags ||| Flag.presenceOpen.set }
          pins := t.pins }
      else t = { s with biu := { s.biu with button := .released, press := none }, pins := t.pins }) ∧
  (∀ s : State, s.powered = true → s.biu.pressed = false → s.biu.button ≠ .released →
    s.biu.levelSince + 30 ≤ s.uptime → s.gate.state = .faultHold → 0 < s.recoverySize →
    s.biu.press.any (fun p => !p.untimed && !p.holdFired && decide (s.uptime < p.since + 2000)) = true →
    ∃ t, exec .debouncedRelease s = .next t ∧
      BootEnded true { s with
        gate := { s.gate with failures := 0 }
        biu := { s.biu with button := .released, press := none }
        store := if s.kept.lifecycle = .field then
          { s.store with waiting := s.store.waiting ++ [⟨.recoveryNext true, .silent⟩] } else s.store } t)

/-- The window closes when the uptime reaches its closing time, with the presence source absent and no flag raised
(R150). At the end of a source's period a staged pattern is taken, a continuous one goes on, and otherwise a repeat is
counted, the last of which leaves the source absent (R153). After every event of a part that then has power IND is lit
exactly while the highest-ranked source that is generating is in its on-time, and a command whose event does not occur
changes nothing (R154; log entries 5 and 29, the model's). -/
def Obligations.WindowPeriodsAndOnTimeRunOut : Prop :=
  (∀ (s : State) (closing : Nat), s.powered = true → s.biu.window = some closing → closing ≤ s.uptime →
    ∃ t, exec .presenceWindowTimeout s = .next t ∧
      t = { s with biu := { s.biu with window := none, presence := ⟨none, none⟩ }, pins := t.pins } ∧
      t.pins.ind = t.indLit) ∧
  (∀ (s : State) (which : IndSource) (g : Generating), s.powered = true → (s.biu.source which).current = some g →
    g.start + g.pattern.period ≤ s.uptime →
    ∃ t, exec (.patternPeriodEnd which) s = .next t ∧ t = { s with biu := t.biu, pins := t.pins } ∧
      (∀ other, other ≠ which → t.biu.source other = s.biu.source other) ∧ t.biu.window = s.biu.window ∧
      t.pins.ind = t.indLit ∧
      t.biu.source which =
        match (s.biu.source which).staged with
        | some p => ⟨some ⟨p, p.repeats, g.start + g.pattern.period⟩, none⟩
        | none =>
          if g.pattern.repeats = 0 then ⟨some { g with start := g.start + g.pattern.period }, none⟩
          else if 1 < g.remaining then
            ⟨some { g with remaining := g.remaining - 1, start := g.start + g.pattern.period }, none⟩
          else ⟨none, none⟩) ∧
  (∀ s : State, s.powered = true → s.pins.ind = true → s.indLit = false →
    ∃ t, exec .onTimeEnd s = .next t ∧ t = { s with pins := t.pins } ∧ t.pins.ind = false) ∧
  (∀ (c : Instr) (s t : State), exec c s = .next t → t.powered = true → t = s ∨ t.pins.ind = t.indLit) ∧
  (∀ s : State, s.indLit =
    match s.biu.reaction.current, s.biu.presence.current, s.biu.host.current with
    | some g, _, _ => decide (s.uptime < g.start + g.pattern.onTime)
    | none, some g, _ => decide (s.uptime < g.start + g.pattern.onTime)
    | none, none, some g => decide (s.uptime < g.start + g.pattern.onTime)
    | none, none, none => false)

/-- SET INDICATOR takes a pattern rounded down to tens and clamped, 50 to 5000 ms with an on-time no greater than the
period, for the host source, at once where it is absent and staged otherwise, and the reply carries it as taken; CLEAR
makes the host source absent at once (R152, R153, R157). -/
def Obligations.SetIndicatorGivesOrClearsTheHostSource : Prop :=
  (∀ (s : State) (identity repeats : Byte) (period onTime : Nat), period < 65536 → onTime < 65536 →
    s.Hears identity (1 :: (le16 period ++ le16 onTime ++ [repeats])) →
    ∃ t, exec (.setIndicatorPattern identity (1 :: (le16 period ++ le16 onTime ++ [repeats]))) s = .next t ∧
      ∃ p : Pattern, p.period = max 50 (min 5000 (period / 10 * 10)) ∧ p.onTime = min p.period (onTime / 10 * 10) ∧
        p.repeats = repeats.toNat ∧
        t.biu = { s.biu with host := match s.biu.host.current with
          | none => ⟨some ⟨p, p.repeats, s.uptime⟩, none⟩
          | some g => ⟨some g, some p⟩ } ∧
        t.Answers identity .ok (le16 p.period ++ le16 p.onTime ++
          [repeats, yesNo s.biu.host.current.isNone,
            yesNo (s.biu.reaction.current.isNone && s.biu.presence.current.isNone)]) ∧
        Quiet s t ∧ t.store = s.store) ∧
  (∀ (s : State) (identity : Byte), s.Hears identity [0] →
    ∃ t, exec (.setIndicatorClear identity [0]) s = .next t ∧
      t.biu = { s.biu with host := ⟨none, none⟩ } ∧ t.Answers identity .ok [0] ∧ Quiet s t ∧ t.store = s.store)

/-! ## Writes of the tables and the factory requests (chapters 9 and 11) -/

/-- REACTION WRITE, PATTERN WRITE and REQUESTER WRITE with the right ADMIN hand one write to the store: a well-formed
entry as it is carried, a pattern as it is taken, and an identity's record as it is carried (R159, R165, R166, R152,
R27). Each replaces exactly the record it names. A completed PATTERN WRITE of pattern 3 gives the presence source of an
open window a copy that runs as continuous, staged while it is generating (R155, R166). A completed REACTION WRITE
clears the entry's mark and count; an entry with OWNER_RESET on another condition than BUTTON_HOLD is refused; and so is
a record that would take identity 0 from enabled with ceiling LOADER or leave no enabled identity with ADMIN. -/
def Obligations.TableWritesReplaceOneEntry : Prop :=
  (∀ (r : Records) (i : Nat) (q : Requester), i < 8 → (i = 0 → q.enabled = true ∧ q.ceiling = .loader) →
    someAdmin (r.requesters.setIfInBounds i q) = true →
    (r.apply (.requesterPut i q)).requesters[i]? = some q ∧
      (∀ j : Nat, j ≠ i → (r.apply (.requesterPut i q)).requesters[j]? = r.requesters[j]?) ∧
      r.apply (.requesterPut i q) = { r with requesters := (r.apply (.requesterPut i q)).requesters }) ∧
  (∀ (r : Records) (n : Nat) (p : Pattern), 1 ≤ n → n ≤ 4 →
    (r.apply (.patternPut n p)).pattern n = p ∧
      (∀ m, 1 ≤ m → m ≠ n → (r.apply (.patternPut n p)).pattern m = r.pattern m) ∧
      r.apply (.patternPut n p) = { r with patterns := (r.apply (.patternPut n p)).patterns }) ∧
  (∀ (s : State) (n : Nat) (p : Pattern) (payload : Bytes), s.powered = true → s.gate.selection = .idle →
    s.store.making = some ⟨.patternPut n p, .reply payload⟩ →
    ∃ t, exec .storeWriteComplete s = .next t ∧ t.kept = s.kept.apply (.patternPut n p) ∧
      t.Answers s.asker .ok payload ∧
      t.biu = if n = 3 ∧ s.biu.window.isSome = true then
          { s.biu with presence := match s.biu.presence.current with
            | none => ⟨some ⟨{ p with repeats := 0 }, 0, s.uptime⟩, none⟩
            | some g => ⟨some g, some { p with repeats := 0 }⟩ }
        else s.biu) ∧
  (∀ (s : State) (identity : Byte) (payload : Bytes) (i : Nat) (e : ReactionEntry), s.Hears identity payload →
    s.hasRight identity.toNat rightAdmin = true → readReaction payload = some (i, e) →
    ∃ t, exec (.reactionWrite identity payload) s = .next t ∧
      Hands s .reactionWrite identity payload (.reactionPut i e) (.reply payload) s.biu t) ∧
  (∀ (s : State) (identity index enabled condition threshold once : Byte),
    s.Hears identity [index, enabled, condition, 5, threshold, 0, 0, once] →
    s.hasRight identity.toNat rightAdmin = true → condition ≠ 4 →
    ∃ t, exec (.reactionWrite identity [index, enabled, condition, 5, threshold, 0, 0, once]) s = .next t ∧
      Replies s identity .badArgument [] t) ∧
  (∀ (s : State) (i : Nat) (e : ReactionEntry) (payload : Bytes), s.powered = true → i < 8 → s.gate.selection = .idle →
    s.store.making = some ⟨.reactionPut i e, .reply payload⟩ →
    ∃ t, exec .storeWriteComplete s = .next t ∧ t.kept.reactions[i]? = some e ∧ t.reactions.fired[i]? = some false ∧
      t.reactions.counts[i]? = some 0 ∧
      (∀ j, j ≠ i → t.kept.reactions[j]? = s.kept.reactions[j]? ∧ t.reactions.fired[j]? = s.reactions.fired[j]? ∧
        t.reactions.counts[j]? = s.reactions.counts[j]?) ∧
      t.Answers s.asker .ok payload) ∧
  (∀ (s : State) (identity n repeats : Byte) (period onTime : Nat), period < 65536 → onTime < 65536 →
    1 ≤ n.toNat → n.toNat ≤ 4 → s.hasRight identity.toNat rightAdmin = true →
    s.Hears identity (n :: (le16 period ++ le16 onTime ++ [repeats])) →
    ∃ t, exec (.patternWrite identity (n :: (le16 period ++ le16 onTime ++ [repeats]))) s = .next t ∧
      ∃ p : Pattern, p.period = max 50 (min 5000 (period / 10 * 10)) ∧ p.onTime = min p.period (onTime / 10 * 10) ∧
        p.repeats = repeats.toNat ∧
        Hands s .patternWrite identity (n :: (le16 period ++ le16 onTime ++ [repeats])) (.patternPut n.toNat p)
          (.reply (n :: (le16 p.period ++ le16 p.onTime ++ [repeats]))) s.biu t) ∧
  (∀ (s : State) (identity : Byte) (payload : Bytes) (target : Nat) (r : Requester), s.Hears identity payload →
    s.hasRight identity.toNat rightAdmin = true → readRequester payload = some (target, r) →
    ∃ t, exec (.requesterWrite identity payload) s = .next t ∧
      if (target = 0 → r.enabled = true ∧ r.ceiling = .loader) ∧
          someAdmin (s.kept.requesters.setIfInBounds target r) = true then
        Hands s .requesterWrite identity payload (.requesterPut target r) (.reply payload) s.biu t
      else Replies s identity .badArgument [] t)

/-- PROVISION SLOT in MANUFACTURE on slots 0..3: a policy of class FACTORY that is well formed, on an EMPTY slot with a
free label, begins generation, or hands the new ACTIVE slot to the store for a public key on the curve or the first
chunk of a blob; a later chunk at the length of an ACTIVE blob is handed over to be appended (R20); ERASE empties a
slot, and answers OK on an EMPTY one (R185). In FIELD every factory request is refused NOT_PERMITTED (R184). -/
def Obligations.ProvisionSlotWritesFactorySlots : Prop :=
  (∀ (s : State) (identity i : Byte) (rest tail : Bytes) (p : Policy), s.kept.lifecycle = .manufacture → i.toNat ≤ 3 →
    takePolicy rest = some (p, tail) → p.classCode = 0 → p.wellFormed .factory = true → s.kept.slot i.toNat = none →
    s.kept.slotLabelFree p.label = true →
    (tail = [] → KeyKind.ofCode p.kindCode = some .signingPair ∨ KeyKind.ofCode p.kindCode = some .secret →
      s.Hears identity (i :: 0 :: rest) →
      ∃ t, exec (.provisionSlotGenerate identity (i :: 0 :: rest)) s = .next t ∧ Quiet s t ∧ t.store = s.store ∧
        t.biu = s.biu ∧ t.Serves .provisionSlot identity (i :: 0 :: rest) ∧
        t.link.service = .generating i.toNat p true) ∧
    (tail.length = 64 → KeyKind.ofCode p.kindCode = some .verifyPublic → s.Hears identity (i :: 1 :: rest) →
      ∃ t, exec (.provisionSlotPublic identity (i :: 1 :: rest)) s = .next t ∧
        if Config.pointOnCurve tail = true then
          Hands s .provisionSlot identity (i :: 1 :: rest)
            (.slotPut i.toNat (p.newSlot .factory (.verifyPublic tail) s.ism)) (.reply [1]) s.biu t
        else Replies s identity .badArgument [] t) ∧
    (1 ≤ tail.length → tail.length ≤ 512 → KeyKind.ofCode p.kindCode = some .blob →
      s.Hears identity (i :: 2 :: 0 :: 0 :: rest) →
      ∃ t, exec (.provisionSlotBlob identity (i :: 2 :: 0 :: 0 :: rest)) s = .next t ∧
        Hands s .provisionSlot identity (i :: 2 :: 0 :: 0 :: rest)
          (.slotPut i.toNat (p.newSlot .factory (.blob tail) s.ism)) (.replyBlob i.toNat true) s.biu t)) ∧
  (∀ (s : State) (identity i : Byte) (k : KeySlot) (data chunk : Bytes), s.kept.lifecycle = .manufacture → i.toNat ≤ 3 →
    s.kept.slot i.toNat = some k → k.slotClass = .factory → k.state = .active → k.material = .blob data →
    0 < data.length → 1 ≤ chunk.length → chunk.length ≤ 512 → data.length + chunk.length ≤ 1024 →
    s.Hears identity (i :: 2 :: (le16 data.length ++ chunk)) →
    ∃ t, exec (.provisionSlotBlob identity (i :: 2 :: (le16 data.length ++ chunk))) s = .next t ∧
      Hands s .provisionSlot identity (i :: 2 :: (le16 data.length ++ chunk))
        (.slotAppend (s.kept.slotPlace i.toNat) data.length chunk) (.replyBlob i.toNat true) s.biu t) ∧
  (∀ (s : State) (identity i : Byte), s.kept.lifecycle = .manufacture → i.toNat ≤ 3 → s.Hears identity [i, 3] →
    (s.kept.slot i.toNat = none → ∃ t, exec (.provisionSlotErase identity [i, 3]) s = .next t ∧
      Replies s identity .ok [0] t) ∧
    (∀ k, s.kept.slot i.toNat = some k → k.slotClass = .factory →
      ∃ t, exec (.provisionSlotErase identity [i, 3]) s = .next t ∧
        Hands s .provisionSlot identity [i, 3] (.slotErase (s.kept.slotPlace i.toNat)) (.reply [0]) s.biu t)) ∧
  (∀ (s : State) (identity : Byte) (payload : Bytes) (c : Instr), s.kept.lifecycle = .field → s.Hears identity payload →
    c ∈ [.provisionSlotGenerate identity payload, .provisionSlotPublic identity payload,
      .provisionSlotBlob identity payload, .provisionSlotErase identity payload,
      .provisionCredential identity payload, .provisionLayout identity payload,
      .provisionGolden identity payload, .lockFactory identity payload] →
    ∃ t, exec c s = .next t ∧ Replies s identity .notPermitted [] t)

/-- PROVISION LAYOUT writes S and R rounded down to 64 KiB and clamped, with both golden sets marked not valid (R187);
PROVISION GOLDEN writes set A, valid with its regions, and counter 0, the epoch, where its checks hold, and keeps every
other record (R188); PROVISION CREDENTIAL writes a FACTORY record with its factory copy, or digests its passphrase first
(R186); and LOCK FACTORY, where its preconditions hold, moves the lifecycle to FIELD (R189): each in one write or
update. -/
def Obligations.ProvisioningWritesAndLocksTheFactoryRecords : Prop :=
  ∀ (s : State) (identity : Byte), s.kept.lifecycle = .manufacture →
    (∀ size recovery : Nat, size < 2 ^ 32 → recovery < 2 ^ 32 → s.Hears identity (le32 size ++ le32 recovery) →
      ∃ t l, exec (.provisionLayout identity (le32 size ++ le32 recovery)) s = .next t ∧
        l.bankSize = max 65536 (min 16777216 (size / 65536 * 65536)) ∧
        l.recoverySize = min 8388608 (recovery / 65536 * 65536) ∧
        Hands s .provisionLayout identity (le32 size ++ le32 recovery) (.layoutPut l)
          (.reply (le32 l.bankSize ++ le32 l.recoverySize)) s.biu t ∧
        s.kept.apply (.layoutPut l) = { s.kept with
          layout := some l
          goldenA := { s.kept.goldenA with valid := false }
          goldenB := { s.kept.goldenB with valid := false } }) ∧
    (∀ (payload : Bytes) (epoch build : Nat) (regions : List Region) (l : Layout), s.Hears identity payload →
      readGolden payload = some (epoch, build, regions) → s.kept.layout = some l →
      ∃ t, exec (.provisionGolden identity payload) s = .next t ∧
        if regionsFit l.bankSize regions = true ∧ epoch ≤ 4095 ∧ s.kept.counter 0 ≤ epoch then
          Hands s .provisionGolden identity payload (.goldenPut epoch build regions) (.reply (le16 epoch)) s.biu t ∧
          (s.kept.apply (.goldenPut epoch build regions)).counter 0 = epoch ∧
          (∀ line, line ≠ 0 → (s.kept.apply (.goldenPut epoch build regions)).counter line = s.kept.counter line) ∧
          s.kept.apply (.goldenPut epoch build regions) = { s.kept with
            goldenA := ⟨true, epoch, build, regions⟩
            counters := (s.kept.apply (.goldenPut epoch build regions)).counters }
        else Replies s identity .badArgument [] t) ∧
    (∀ (payload : Bytes) (f : CredForm), s.vault.free = true → s.Hears identity payload →
      readCredForm payload = some f → f.wellFormed = true →
      (s.kept.findCred f.label = none ∧ s.kept.freeCred ≠ none) ∨
        (∃ i c, s.kept.findCred f.label = some (i, c) ∧ c.credClass ≠ .owner) →
      ∃ t, exec (.provisionCredential identity payload) s = .next t ∧
        if f.kind = some .secret then
          Hands s .provisionCredential identity payload
            (.credPut (f.record (.factory f.value false) f.value s.ism)) (.replyIndex f.label) s.biu t
        else Digests s .provisionCredential identity payload (some s.kept.vaultKey) (f.label ++ [0] ++ f.value)
          (.provisioning f) s.biu t) ∧
    (s.Hears identity [] → ∃ t, exec (.lockFactory identity []) s = .next t ∧
      (s.kept.layout ≠ none ∧ s.kept.goldenA.valid = true ∧
          (∃ k, s.kept.slot 0 = some k ∧ k.state = .active) ∧
          (∃ k a b, s.kept.slot 1 = some k ∧ k.state = .active ∧ k.material = .pair a b ∧
            inSet k.usage useStatement = true ∧ k.answerSet = 0xFF ∧ k.binding = none ∧ k.useLimit = none) →
        Hands s .lockFactory identity [] .lock (.reply []) s.biu t ∧
        s.kept.apply .lock = { s.kept with lifecycle := .field }) ∧
      (s.kept.layout = none ∨ s.kept.goldenA.valid = false ∨ s.kept.slotActive 0 = false ∨ s.kept.slotActive 1 = false ∨
          s.kept.attestationReady = false →
        Replies s identity .wrongState [] t))
end

