-- ==== Sys2Proof/Laws/State.lean ====
section
/-! SUPPORT. What each update of the state changes and keeps: one lemma for each field it keeps, and for the fields it changes where a
later proof needs them. -/

namespace Sys2Proof.Machine

/-! ## State.settle -/

@[simp] theorem State.settle_kept (s : State) : (State.settle s).kept = s.kept := rfl
@[simp] theorem State.settle_store (s : State) : (State.settle s).store = s.store := rfl
@[simp] theorem State.settle_link (s : State) : (State.settle s).link = s.link := rfl
@[simp] theorem State.settle_ism (s : State) : (State.settle s).ism = s.ism := rfl
@[simp] theorem State.settle_keys (s : State) : (State.settle s).keys = s.keys := rfl
@[simp] theorem State.settle_engine (s : State) : (State.settle s).engine = s.engine := rfl
@[simp] theorem State.settle_digest (s : State) : (State.settle s).digest = s.digest := rfl
@[simp] theorem State.settle_reader (s : State) : (State.settle s).reader = s.reader := rfl
@[simp] theorem State.settle_port (s : State) : (State.settle s).port = s.port := rfl
@[simp] theorem State.settle_gate (s : State) : (State.settle s).gate = s.gate := rfl
@[simp] theorem State.settle_image (s : State) : (State.settle s).image = s.image := rfl
@[simp] theorem State.settle_vault (s : State) : (State.settle s).vault = s.vault := rfl
@[simp] theorem State.settle_biu (s : State) : (State.settle s).biu = s.biu := rfl
@[simp] theorem State.settle_reactions (s : State) : (State.settle s).reactions = s.reactions := rfl
@[simp] theorem State.settle_uptime (s : State) : (State.settle s).uptime = s.uptime := rfl
@[simp] theorem State.settle_powered (s : State) : (State.settle s).powered = s.powered := rfl
@[simp] theorem State.settle_draws (s : State) : (State.settle s).draws = s.draws := rfl
@[simp] theorem State.settle_pending (s : State) : (State.settle s).pending = s.pending := rfl

/-! ## State.raise -/

@[simp] theorem State.raise_kept (f : Flag) (s : State) : (State.raise f s).kept = s.kept := rfl
@[simp] theorem State.raise_store (f : Flag) (s : State) : (State.raise f s).store = s.store := rfl
@[simp] theorem State.raise_ism (f : Flag) (s : State) : (State.raise f s).ism = s.ism := rfl
@[simp] theorem State.raise_keys (f : Flag) (s : State) : (State.raise f s).keys = s.keys := rfl
@[simp] theorem State.raise_engine (f : Flag) (s : State) : (State.raise f s).engine = s.engine := rfl
@[simp] theorem State.raise_digest (f : Flag) (s : State) : (State.raise f s).digest = s.digest := rfl
@[simp] theorem State.raise_reader (f : Flag) (s : State) : (State.raise f s).reader = s.reader := rfl
@[simp] theorem State.raise_port (f : Flag) (s : State) : (State.raise f s).port = s.port := rfl
@[simp] theorem State.raise_gate (f : Flag) (s : State) : (State.raise f s).gate = s.gate := rfl
@[simp] theorem State.raise_image (f : Flag) (s : State) : (State.raise f s).image = s.image := rfl
@[simp] theorem State.raise_vault (f : Flag) (s : State) : (State.raise f s).vault = s.vault := rfl
@[simp] theorem State.raise_biu (f : Flag) (s : State) : (State.raise f s).biu = s.biu := rfl
@[simp] theorem State.raise_reactions (f : Flag) (s : State) : (State.raise f s).reactions = s.reactions := rfl
@[simp] theorem State.raise_pins (f : Flag) (s : State) : (State.raise f s).pins = s.pins := rfl
@[simp] theorem State.raise_uptime (f : Flag) (s : State) : (State.raise f s).uptime = s.uptime := rfl
@[simp] theorem State.raise_powered (f : Flag) (s : State) : (State.raise f s).powered = s.powered := rfl
@[simp] theorem State.raise_draws (f : Flag) (s : State) : (State.raise f s).draws = s.draws := rfl
@[simp] theorem State.raise_pending (f : Flag) (s : State) : (State.raise f s).pending = s.pending := rfl

/-! ## State.clearFlags -/

@[simp] theorem State.clearFlags_kept (m : BitVec 12) (s : State) : (State.clearFlags m s).kept = s.kept := rfl
@[simp] theorem State.clearFlags_store (m : BitVec 12) (s : State) : (State.clearFlags m s).store = s.store := rfl
@[simp] theorem State.clearFlags_ism (m : BitVec 12) (s : State) : (State.clearFlags m s).ism = s.ism := rfl
@[simp] theorem State.clearFlags_keys (m : BitVec 12) (s : State) : (State.clearFlags m s).keys = s.keys := rfl
@[simp] theorem State.clearFlags_engine (m : BitVec 12) (s : State) : (State.clearFlags m s).engine = s.engine := rfl
@[simp] theorem State.clearFlags_digest (m : BitVec 12) (s : State) : (State.clearFlags m s).digest = s.digest := rfl
@[simp] theorem State.clearFlags_reader (m : BitVec 12) (s : State) : (State.clearFlags m s).reader = s.reader := rfl
@[simp] theorem State.clearFlags_port (m : BitVec 12) (s : State) : (State.clearFlags m s).port = s.port := rfl
@[simp] theorem State.clearFlags_gate (m : BitVec 12) (s : State) : (State.clearFlags m s).gate = s.gate := rfl
@[simp] theorem State.clearFlags_image (m : BitVec 12) (s : State) : (State.clearFlags m s).image = s.image := rfl
@[simp] theorem State.clearFlags_vault (m : BitVec 12) (s : State) : (State.clearFlags m s).vault = s.vault := rfl
@[simp] theorem State.clearFlags_biu (m : BitVec 12) (s : State) : (State.clearFlags m s).biu = s.biu := rfl
@[simp] theorem State.clearFlags_reactions (m : BitVec 12) (s : State) : (State.clearFlags m s).reactions = s.reactions := rfl
@[simp] theorem State.clearFlags_pins (m : BitVec 12) (s : State) : (State.clearFlags m s).pins = s.pins := rfl
@[simp] theorem State.clearFlags_uptime (m : BitVec 12) (s : State) : (State.clearFlags m s).uptime = s.uptime := rfl
@[simp] theorem State.clearFlags_powered (m : BitVec 12) (s : State) : (State.clearFlags m s).powered = s.powered := rfl
@[simp] theorem State.clearFlags_draws (m : BitVec 12) (s : State) : (State.clearFlags m s).draws = s.draws := rfl
@[simp] theorem State.clearFlags_pending (m : BitVec 12) (s : State) : (State.clearFlags m s).pending = s.pending := rfl

/-! ## State.raiseBadRun -/

@[simp] theorem State.raiseBadRun_kept (s : State) : (State.raiseBadRun s).kept = s.kept := rfl
@[simp] theorem State.raiseBadRun_store (s : State) : (State.raiseBadRun s).store = s.store := rfl
@[simp] theorem State.raiseBadRun_ism (s : State) : (State.raiseBadRun s).ism = s.ism := rfl
@[simp] theorem State.raiseBadRun_keys (s : State) : (State.raiseBadRun s).keys = s.keys := rfl
@[simp] theorem State.raiseBadRun_engine (s : State) : (State.raiseBadRun s).engine = s.engine := rfl
@[simp] theorem State.raiseBadRun_digest (s : State) : (State.raiseBadRun s).digest = s.digest := rfl
@[simp] theorem State.raiseBadRun_reader (s : State) : (State.raiseBadRun s).reader = s.reader := rfl
@[simp] theorem State.raiseBadRun_port (s : State) : (State.raiseBadRun s).port = s.port := rfl
@[simp] theorem State.raiseBadRun_gate (s : State) : (State.raiseBadRun s).gate = s.gate := rfl
@[simp] theorem State.raiseBadRun_image (s : State) : (State.raiseBadRun s).image = s.image := rfl
@[simp] theorem State.raiseBadRun_vault (s : State) : (State.raiseBadRun s).vault = s.vault := rfl
@[simp] theorem State.raiseBadRun_biu (s : State) : (State.raiseBadRun s).biu = s.biu := rfl
@[simp] theorem State.raiseBadRun_reactions (s : State) : (State.raiseBadRun s).reactions = s.reactions := rfl
@[simp] theorem State.raiseBadRun_pins (s : State) : (State.raiseBadRun s).pins = s.pins := rfl
@[simp] theorem State.raiseBadRun_uptime (s : State) : (State.raiseBadRun s).uptime = s.uptime := rfl
@[simp] theorem State.raiseBadRun_powered (s : State) : (State.raiseBadRun s).powered = s.powered := rfl
@[simp] theorem State.raiseBadRun_draws (s : State) : (State.raiseBadRun s).draws = s.draws := rfl
@[simp] theorem State.raiseBadRun_pending (s : State) : (State.raiseBadRun s).pending = s.pending := rfl

/-! ## State.acceptFrame -/

@[simp] theorem State.acceptFrame_kept (s : State) : (State.acceptFrame s).kept = s.kept := rfl
@[simp] theorem State.acceptFrame_store (s : State) : (State.acceptFrame s).store = s.store := rfl
@[simp] theorem State.acceptFrame_ism (s : State) : (State.acceptFrame s).ism = s.ism := rfl
@[simp] theorem State.acceptFrame_keys (s : State) : (State.acceptFrame s).keys = s.keys := rfl
@[simp] theorem State.acceptFrame_engine (s : State) : (State.acceptFrame s).engine = s.engine := rfl
@[simp] theorem State.acceptFrame_digest (s : State) : (State.acceptFrame s).digest = s.digest := rfl
@[simp] theorem State.acceptFrame_reader (s : State) : (State.acceptFrame s).reader = s.reader := rfl
@[simp] theorem State.acceptFrame_port (s : State) : (State.acceptFrame s).port = s.port := rfl
@[simp] theorem State.acceptFrame_gate (s : State) : (State.acceptFrame s).gate = s.gate := rfl
@[simp] theorem State.acceptFrame_image (s : State) : (State.acceptFrame s).image = s.image := rfl
@[simp] theorem State.acceptFrame_vault (s : State) : (State.acceptFrame s).vault = s.vault := rfl
@[simp] theorem State.acceptFrame_biu (s : State) : (State.acceptFrame s).biu = s.biu := rfl
@[simp] theorem State.acceptFrame_reactions (s : State) : (State.acceptFrame s).reactions = s.reactions := rfl
@[simp] theorem State.acceptFrame_pins (s : State) : (State.acceptFrame s).pins = s.pins := rfl
@[simp] theorem State.acceptFrame_uptime (s : State) : (State.acceptFrame s).uptime = s.uptime := rfl
@[simp] theorem State.acceptFrame_powered (s : State) : (State.acceptFrame s).powered = s.powered := rfl
@[simp] theorem State.acceptFrame_draws (s : State) : (State.acceptFrame s).draws = s.draws := rfl
@[simp] theorem State.acceptFrame_pending (s : State) : (State.acceptFrame s).pending = s.pending := rfl

/-! ## State.handOver -/

@[simp] theorem State.handOver_kept (op : StoreOp) (a : After) (s : State) : (State.handOver op a s).kept = s.kept := rfl
@[simp] theorem State.handOver_link (op : StoreOp) (a : After) (s : State) : (State.handOver op a s).link = s.link := rfl
@[simp] theorem State.handOver_ism (op : StoreOp) (a : After) (s : State) : (State.handOver op a s).ism = s.ism := rfl
@[simp] theorem State.handOver_keys (op : StoreOp) (a : After) (s : State) : (State.handOver op a s).keys = s.keys := rfl
@[simp] theorem State.handOver_engine (op : StoreOp) (a : After) (s : State) : (State.handOver op a s).engine = s.engine := rfl
@[simp] theorem State.handOver_digest (op : StoreOp) (a : After) (s : State) : (State.handOver op a s).digest = s.digest := rfl
@[simp] theorem State.handOver_reader (op : StoreOp) (a : After) (s : State) : (State.handOver op a s).reader = s.reader := rfl
@[simp] theorem State.handOver_port (op : StoreOp) (a : After) (s : State) : (State.handOver op a s).port = s.port := rfl
@[simp] theorem State.handOver_gate (op : StoreOp) (a : After) (s : State) : (State.handOver op a s).gate = s.gate := rfl
@[simp] theorem State.handOver_image (op : StoreOp) (a : After) (s : State) : (State.handOver op a s).image = s.image := rfl
@[simp] theorem State.handOver_vault (op : StoreOp) (a : After) (s : State) : (State.handOver op a s).vault = s.vault := rfl
@[simp] theorem State.handOver_biu (op : StoreOp) (a : After) (s : State) : (State.handOver op a s).biu = s.biu := rfl
@[simp] theorem State.handOver_reactions (op : StoreOp) (a : After) (s : State) : (State.handOver op a s).reactions = s.reactions := rfl
@[simp] theorem State.handOver_pins (op : StoreOp) (a : After) (s : State) : (State.handOver op a s).pins = s.pins := rfl
@[simp] theorem State.handOver_uptime (op : StoreOp) (a : After) (s : State) : (State.handOver op a s).uptime = s.uptime := rfl
@[simp] theorem State.handOver_powered (op : StoreOp) (a : After) (s : State) : (State.handOver op a s).powered = s.powered := rfl
@[simp] theorem State.handOver_draws (op : StoreOp) (a : After) (s : State) : (State.handOver op a s).draws = s.draws := rfl
@[simp] theorem State.handOver_pending (op : StoreOp) (a : After) (s : State) : (State.handOver op a s).pending = s.pending := rfl

/-! ## sends -/

@[simp] theorem sends_kept (b : Bytes) (s : State) : (sends b s).kept = s.kept := rfl
@[simp] theorem sends_store (b : Bytes) (s : State) : (sends b s).store = s.store := rfl
@[simp] theorem sends_link (b : Bytes) (s : State) : (sends b s).link = s.link := rfl
@[simp] theorem sends_ism (b : Bytes) (s : State) : (sends b s).ism = s.ism := rfl
@[simp] theorem sends_keys (b : Bytes) (s : State) : (sends b s).keys = s.keys := rfl
@[simp] theorem sends_engine (b : Bytes) (s : State) : (sends b s).engine = s.engine := rfl
@[simp] theorem sends_digest (b : Bytes) (s : State) : (sends b s).digest = s.digest := rfl
@[simp] theorem sends_reader (b : Bytes) (s : State) : (sends b s).reader = s.reader := rfl
@[simp] theorem sends_port (b : Bytes) (s : State) : (sends b s).port = s.port := rfl
@[simp] theorem sends_gate (b : Bytes) (s : State) : (sends b s).gate = s.gate := rfl
@[simp] theorem sends_image (b : Bytes) (s : State) : (sends b s).image = s.image := rfl
@[simp] theorem sends_vault (b : Bytes) (s : State) : (sends b s).vault = s.vault := rfl
@[simp] theorem sends_biu (b : Bytes) (s : State) : (sends b s).biu = s.biu := rfl
@[simp] theorem sends_reactions (b : Bytes) (s : State) : (sends b s).reactions = s.reactions := rfl
@[simp] theorem sends_uptime (b : Bytes) (s : State) : (sends b s).uptime = s.uptime := rfl
@[simp] theorem sends_powered (b : Bytes) (s : State) : (sends b s).powered = s.powered := rfl
@[simp] theorem sends_draws (b : Bytes) (s : State) : (sends b s).draws = s.draws := rfl
@[simp] theorem sends_pending (b : Bytes) (s : State) : (sends b s).pending = s.pending := rfl

/-! ## sendsHeld -/

@[simp] theorem sendsHeld_kept (n : Nat) (s : State) : (sendsHeld n s).kept = s.kept := rfl
@[simp] theorem sendsHeld_store (n : Nat) (s : State) : (sendsHeld n s).store = s.store := rfl
@[simp] theorem sendsHeld_link (n : Nat) (s : State) : (sendsHeld n s).link = s.link := rfl
@[simp] theorem sendsHeld_ism (n : Nat) (s : State) : (sendsHeld n s).ism = s.ism := rfl
@[simp] theorem sendsHeld_keys (n : Nat) (s : State) : (sendsHeld n s).keys = s.keys := rfl
@[simp] theorem sendsHeld_engine (n : Nat) (s : State) : (sendsHeld n s).engine = s.engine := rfl
@[simp] theorem sendsHeld_digest (n : Nat) (s : State) : (sendsHeld n s).digest = s.digest := rfl
@[simp] theorem sendsHeld_reader (n : Nat) (s : State) : (sendsHeld n s).reader = s.reader := rfl
@[simp] theorem sendsHeld_port (n : Nat) (s : State) : (sendsHeld n s).port = s.port := rfl
@[simp] theorem sendsHeld_gate (n : Nat) (s : State) : (sendsHeld n s).gate = s.gate := rfl
@[simp] theorem sendsHeld_image (n : Nat) (s : State) : (sendsHeld n s).image = s.image := rfl
@[simp] theorem sendsHeld_vault (n : Nat) (s : State) : (sendsHeld n s).vault = s.vault := rfl
@[simp] theorem sendsHeld_biu (n : Nat) (s : State) : (sendsHeld n s).biu = s.biu := rfl
@[simp] theorem sendsHeld_reactions (n : Nat) (s : State) : (sendsHeld n s).reactions = s.reactions := rfl
@[simp] theorem sendsHeld_uptime (n : Nat) (s : State) : (sendsHeld n s).uptime = s.uptime := rfl
@[simp] theorem sendsHeld_powered (n : Nat) (s : State) : (sendsHeld n s).powered = s.powered := rfl
@[simp] theorem sendsHeld_draws (n : Nat) (s : State) : (sendsHeld n s).draws = s.draws := rfl
@[simp] theorem sendsHeld_pending (n : Nat) (s : State) : (sendsHeld n s).pending = s.pending := rfl

/-! ## sendsBusy -/

@[simp] theorem sendsBusy_kept (n : Nat) (s : State) : (sendsBusy n s).kept = s.kept := rfl
@[simp] theorem sendsBusy_store (n : Nat) (s : State) : (sendsBusy n s).store = s.store := rfl
@[simp] theorem sendsBusy_link (n : Nat) (s : State) : (sendsBusy n s).link = s.link := rfl
@[simp] theorem sendsBusy_ism (n : Nat) (s : State) : (sendsBusy n s).ism = s.ism := rfl
@[simp] theorem sendsBusy_keys (n : Nat) (s : State) : (sendsBusy n s).keys = s.keys := rfl
@[simp] theorem sendsBusy_engine (n : Nat) (s : State) : (sendsBusy n s).engine = s.engine := rfl
@[simp] theorem sendsBusy_digest (n : Nat) (s : State) : (sendsBusy n s).digest = s.digest := rfl
@[simp] theorem sendsBusy_reader (n : Nat) (s : State) : (sendsBusy n s).reader = s.reader := rfl
@[simp] theorem sendsBusy_port (n : Nat) (s : State) : (sendsBusy n s).port = s.port := rfl
@[simp] theorem sendsBusy_gate (n : Nat) (s : State) : (sendsBusy n s).gate = s.gate := rfl
@[simp] theorem sendsBusy_image (n : Nat) (s : State) : (sendsBusy n s).image = s.image := rfl
@[simp] theorem sendsBusy_vault (n : Nat) (s : State) : (sendsBusy n s).vault = s.vault := rfl
@[simp] theorem sendsBusy_biu (n : Nat) (s : State) : (sendsBusy n s).biu = s.biu := rfl
@[simp] theorem sendsBusy_reactions (n : Nat) (s : State) : (sendsBusy n s).reactions = s.reactions := rfl
@[simp] theorem sendsBusy_uptime (n : Nat) (s : State) : (sendsBusy n s).uptime = s.uptime := rfl
@[simp] theorem sendsBusy_powered (n : Nat) (s : State) : (sendsBusy n s).powered = s.powered := rfl
@[simp] theorem sendsBusy_draws (n : Nat) (s : State) : (sendsBusy n s).draws = s.draws := rfl
@[simp] theorem sendsBusy_pending (n : Nat) (s : State) : (sendsBusy n s).pending = s.pending := rfl

/-! ## answerAs -/

@[simp] theorem answerAs_kept (i : Byte) (st : Status) (p : Bytes) (s : State) : (answerAs i st p s).kept = s.kept := rfl
@[simp] theorem answerAs_store (i : Byte) (st : Status) (p : Bytes) (s : State) : (answerAs i st p s).store = s.store := rfl
@[simp] theorem answerAs_ism (i : Byte) (st : Status) (p : Bytes) (s : State) : (answerAs i st p s).ism = s.ism := rfl
@[simp] theorem answerAs_keys (i : Byte) (st : Status) (p : Bytes) (s : State) : (answerAs i st p s).keys = s.keys := rfl
@[simp] theorem answerAs_engine (i : Byte) (st : Status) (p : Bytes) (s : State) : (answerAs i st p s).engine = s.engine := rfl
@[simp] theorem answerAs_reader (i : Byte) (st : Status) (p : Bytes) (s : State) : (answerAs i st p s).reader = s.reader := rfl
@[simp] theorem answerAs_port (i : Byte) (st : Status) (p : Bytes) (s : State) : (answerAs i st p s).port = s.port := rfl
@[simp] theorem answerAs_gate (i : Byte) (st : Status) (p : Bytes) (s : State) : (answerAs i st p s).gate = s.gate := rfl
@[simp] theorem answerAs_image (i : Byte) (st : Status) (p : Bytes) (s : State) : (answerAs i st p s).image = s.image := rfl
@[simp] theorem answerAs_biu (i : Byte) (st : Status) (p : Bytes) (s : State) : (answerAs i st p s).biu = s.biu := rfl
@[simp] theorem answerAs_reactions (i : Byte) (st : Status) (p : Bytes) (s : State) : (answerAs i st p s).reactions = s.reactions := rfl
@[simp] theorem answerAs_pins (i : Byte) (st : Status) (p : Bytes) (s : State) : (answerAs i st p s).pins = s.pins := rfl
@[simp] theorem answerAs_uptime (i : Byte) (st : Status) (p : Bytes) (s : State) : (answerAs i st p s).uptime = s.uptime := rfl
@[simp] theorem answerAs_powered (i : Byte) (st : Status) (p : Bytes) (s : State) : (answerAs i st p s).powered = s.powered := rfl
@[simp] theorem answerAs_draws (i : Byte) (st : Status) (p : Bytes) (s : State) : (answerAs i st p s).draws = s.draws := rfl
@[simp] theorem answerAs_pending (i : Byte) (st : Status) (p : Bytes) (s : State) : (answerAs i st p s).pending = s.pending := rfl

/-! ## answer -/

@[simp] theorem answer_kept (st : Status) (p : Bytes) (s : State) : (answer st p s).kept = s.kept := rfl
@[simp] theorem answer_store (st : Status) (p : Bytes) (s : State) : (answer st p s).store = s.store := rfl
@[simp] theorem answer_ism (st : Status) (p : Bytes) (s : State) : (answer st p s).ism = s.ism := rfl
@[simp] theorem answer_keys (st : Status) (p : Bytes) (s : State) : (answer st p s).keys = s.keys := rfl
@[simp] theorem answer_engine (st : Status) (p : Bytes) (s : State) : (answer st p s).engine = s.engine := rfl
@[simp] theorem answer_reader (st : Status) (p : Bytes) (s : State) : (answer st p s).reader = s.reader := rfl
@[simp] theorem answer_port (st : Status) (p : Bytes) (s : State) : (answer st p s).port = s.port := rfl
@[simp] theorem answer_gate (st : Status) (p : Bytes) (s : State) : (answer st p s).gate = s.gate := rfl
@[simp] theorem answer_image (st : Status) (p : Bytes) (s : State) : (answer st p s).image = s.image := rfl
@[simp] theorem answer_biu (st : Status) (p : Bytes) (s : State) : (answer st p s).biu = s.biu := rfl
@[simp] theorem answer_reactions (st : Status) (p : Bytes) (s : State) : (answer st p s).reactions = s.reactions := rfl
@[simp] theorem answer_pins (st : Status) (p : Bytes) (s : State) : (answer st p s).pins = s.pins := rfl
@[simp] theorem answer_uptime (st : Status) (p : Bytes) (s : State) : (answer st p s).uptime = s.uptime := rfl
@[simp] theorem answer_powered (st : Status) (p : Bytes) (s : State) : (answer st p s).powered = s.powered := rfl
@[simp] theorem answer_draws (st : Status) (p : Bytes) (s : State) : (answer st p s).draws = s.draws := rfl
@[simp] theorem answer_pending (st : Status) (p : Bytes) (s : State) : (answer st p s).pending = s.pending := rfl

/-! ## refuse -/

@[simp] theorem refuse_kept (st : Status) (s : State) : (refuse st s).kept = s.kept := rfl
@[simp] theorem refuse_store (st : Status) (s : State) : (refuse st s).store = s.store := rfl
@[simp] theorem refuse_ism (st : Status) (s : State) : (refuse st s).ism = s.ism := rfl
@[simp] theorem refuse_keys (st : Status) (s : State) : (refuse st s).keys = s.keys := rfl
@[simp] theorem refuse_engine (st : Status) (s : State) : (refuse st s).engine = s.engine := rfl
@[simp] theorem refuse_reader (st : Status) (s : State) : (refuse st s).reader = s.reader := rfl
@[simp] theorem refuse_port (st : Status) (s : State) : (refuse st s).port = s.port := rfl
@[simp] theorem refuse_gate (st : Status) (s : State) : (refuse st s).gate = s.gate := rfl
@[simp] theorem refuse_image (st : Status) (s : State) : (refuse st s).image = s.image := rfl
@[simp] theorem refuse_biu (st : Status) (s : State) : (refuse st s).biu = s.biu := rfl
@[simp] theorem refuse_reactions (st : Status) (s : State) : (refuse st s).reactions = s.reactions := rfl
@[simp] theorem refuse_pins (st : Status) (s : State) : (refuse st s).pins = s.pins := rfl
@[simp] theorem refuse_uptime (st : Status) (s : State) : (refuse st s).uptime = s.uptime := rfl
@[simp] theorem refuse_powered (st : Status) (s : State) : (refuse st s).powered = s.powered := rfl
@[simp] theorem refuse_draws (st : Status) (s : State) : (refuse st s).draws = s.draws := rfl
@[simp] theorem refuse_pending (st : Status) (s : State) : (refuse st s).pending = s.pending := rfl

/-! ## beginDigest -/

@[simp] theorem beginDigest_kept (k : Option Bytes) (b : Bytes) (sv : Service) (s : State) : (beginDigest k b sv s).kept = s.kept := rfl
@[simp] theorem beginDigest_store (k : Option Bytes) (b : Bytes) (sv : Service) (s : State) : (beginDigest k b sv s).store = s.store := rfl
@[simp] theorem beginDigest_ism (k : Option Bytes) (b : Bytes) (sv : Service) (s : State) : (beginDigest k b sv s).ism = s.ism := rfl
@[simp] theorem beginDigest_keys (k : Option Bytes) (b : Bytes) (sv : Service) (s : State) : (beginDigest k b sv s).keys = s.keys := rfl
@[simp] theorem beginDigest_engine (k : Option Bytes) (b : Bytes) (sv : Service) (s : State) : (beginDigest k b sv s).engine = s.engine := rfl
@[simp] theorem beginDigest_reader (k : Option Bytes) (b : Bytes) (sv : Service) (s : State) : (beginDigest k b sv s).reader = s.reader := rfl
@[simp] theorem beginDigest_port (k : Option Bytes) (b : Bytes) (sv : Service) (s : State) : (beginDigest k b sv s).port = s.port := rfl
@[simp] theorem beginDigest_gate (k : Option Bytes) (b : Bytes) (sv : Service) (s : State) : (beginDigest k b sv s).gate = s.gate := rfl
@[simp] theorem beginDigest_image (k : Option Bytes) (b : Bytes) (sv : Service) (s : State) : (beginDigest k b sv s).image = s.image := rfl
@[simp] theorem beginDigest_vault (k : Option Bytes) (b : Bytes) (sv : Service) (s : State) : (beginDigest k b sv s).vault = s.vault := rfl
@[simp] theorem beginDigest_biu (k : Option Bytes) (b : Bytes) (sv : Service) (s : State) : (beginDigest k b sv s).biu = s.biu := rfl
@[simp] theorem beginDigest_reactions (k : Option Bytes) (b : Bytes) (sv : Service) (s : State) : (beginDigest k b sv s).reactions = s.reactions := rfl
@[simp] theorem beginDigest_pins (k : Option Bytes) (b : Bytes) (sv : Service) (s : State) : (beginDigest k b sv s).pins = s.pins := rfl
@[simp] theorem beginDigest_uptime (k : Option Bytes) (b : Bytes) (sv : Service) (s : State) : (beginDigest k b sv s).uptime = s.uptime := rfl
@[simp] theorem beginDigest_powered (k : Option Bytes) (b : Bytes) (sv : Service) (s : State) : (beginDigest k b sv s).powered = s.powered := rfl
@[simp] theorem beginDigest_draws (k : Option Bytes) (b : Bytes) (sv : Service) (s : State) : (beginDigest k b sv s).draws = s.draws := rfl
@[simp] theorem beginDigest_pending (k : Option Bytes) (b : Bytes) (sv : Service) (s : State) : (beginDigest k b sv s).pending = s.pending := rfl

/-! ## closeWindow -/

@[simp] theorem closeWindow_kept (s : State) : (closeWindow s).kept = s.kept := rfl
@[simp] theorem closeWindow_store (s : State) : (closeWindow s).store = s.store := rfl
@[simp] theorem closeWindow_link (s : State) : (closeWindow s).link = s.link := rfl
@[simp] theorem closeWindow_ism (s : State) : (closeWindow s).ism = s.ism := rfl
@[simp] theorem closeWindow_keys (s : State) : (closeWindow s).keys = s.keys := rfl
@[simp] theorem closeWindow_engine (s : State) : (closeWindow s).engine = s.engine := rfl
@[simp] theorem closeWindow_digest (s : State) : (closeWindow s).digest = s.digest := rfl
@[simp] theorem closeWindow_reader (s : State) : (closeWindow s).reader = s.reader := rfl
@[simp] theorem closeWindow_port (s : State) : (closeWindow s).port = s.port := rfl
@[simp] theorem closeWindow_gate (s : State) : (closeWindow s).gate = s.gate := rfl
@[simp] theorem closeWindow_image (s : State) : (closeWindow s).image = s.image := rfl
@[simp] theorem closeWindow_vault (s : State) : (closeWindow s).vault = s.vault := rfl
@[simp] theorem closeWindow_reactions (s : State) : (closeWindow s).reactions = s.reactions := rfl
@[simp] theorem closeWindow_pins (s : State) : (closeWindow s).pins = s.pins := rfl
@[simp] theorem closeWindow_uptime (s : State) : (closeWindow s).uptime = s.uptime := rfl
@[simp] theorem closeWindow_powered (s : State) : (closeWindow s).powered = s.powered := rfl
@[simp] theorem closeWindow_draws (s : State) : (closeWindow s).draws = s.draws := rfl
@[simp] theorem closeWindow_pending (s : State) : (closeWindow s).pending = s.pending := rfl

/-! ## openWindow -/

@[simp] theorem openWindow_kept (s : State) : (openWindow s).kept = s.kept := rfl
@[simp] theorem openWindow_store (s : State) : (openWindow s).store = s.store := rfl
@[simp] theorem openWindow_link (s : State) : (openWindow s).link = s.link := rfl
@[simp] theorem openWindow_ism (s : State) : (openWindow s).ism = s.ism := rfl
@[simp] theorem openWindow_keys (s : State) : (openWindow s).keys = s.keys := rfl
@[simp] theorem openWindow_engine (s : State) : (openWindow s).engine = s.engine := rfl
@[simp] theorem openWindow_digest (s : State) : (openWindow s).digest = s.digest := rfl
@[simp] theorem openWindow_reader (s : State) : (openWindow s).reader = s.reader := rfl
@[simp] theorem openWindow_port (s : State) : (openWindow s).port = s.port := rfl
@[simp] theorem openWindow_gate (s : State) : (openWindow s).gate = s.gate := rfl
@[simp] theorem openWindow_image (s : State) : (openWindow s).image = s.image := rfl
@[simp] theorem openWindow_vault (s : State) : (openWindow s).vault = s.vault := rfl
@[simp] theorem openWindow_reactions (s : State) : (openWindow s).reactions = s.reactions := rfl
@[simp] theorem openWindow_pins (s : State) : (openWindow s).pins = s.pins := rfl
@[simp] theorem openWindow_uptime (s : State) : (openWindow s).uptime = s.uptime := rfl
@[simp] theorem openWindow_powered (s : State) : (openWindow s).powered = s.powered := rfl
@[simp] theorem openWindow_draws (s : State) : (openWindow s).draws = s.draws := rfl
@[simp] theorem openWindow_pending (s : State) : (openWindow s).pending = s.pending := rfl

/-! ## releaseCycle -/

@[simp] theorem releaseCycle_kept (s : State) : (releaseCycle s).kept = s.kept := rfl
@[simp] theorem releaseCycle_ism (s : State) : (releaseCycle s).ism = s.ism := rfl
@[simp] theorem releaseCycle_engine (s : State) : (releaseCycle s).engine = s.engine := rfl
@[simp] theorem releaseCycle_reader (s : State) : (releaseCycle s).reader = s.reader := rfl
@[simp] theorem releaseCycle_port (s : State) : (releaseCycle s).port = s.port := rfl
@[simp] theorem releaseCycle_gate (s : State) : (releaseCycle s).gate = s.gate := rfl
@[simp] theorem releaseCycle_image (s : State) : (releaseCycle s).image = s.image := rfl
@[simp] theorem releaseCycle_biu (s : State) : (releaseCycle s).biu = s.biu := rfl
@[simp] theorem releaseCycle_reactions (s : State) : (releaseCycle s).reactions = s.reactions := rfl
@[simp] theorem releaseCycle_pins (s : State) : (releaseCycle s).pins = s.pins := rfl
@[simp] theorem releaseCycle_uptime (s : State) : (releaseCycle s).uptime = s.uptime := rfl
@[simp] theorem releaseCycle_powered (s : State) : (releaseCycle s).powered = s.powered := rfl
@[simp] theorem releaseCycle_draws (s : State) : (releaseCycle s).draws = s.draws := rfl
@[simp] theorem releaseCycle_pending (s : State) : (releaseCycle s).pending = s.pending := rfl

/-! ## clearBoot -/

@[simp] theorem clearBoot_kept (s : State) : (clearBoot s).kept = s.kept := rfl
@[simp] theorem clearBoot_store (s : State) : (clearBoot s).store = s.store := rfl
@[simp] theorem clearBoot_link (s : State) : (clearBoot s).link = s.link := rfl
@[simp] theorem clearBoot_digest (s : State) : (clearBoot s).digest = s.digest := rfl
@[simp] theorem clearBoot_reader (s : State) : (clearBoot s).reader = s.reader := rfl
@[simp] theorem clearBoot_gate (s : State) : (clearBoot s).gate = s.gate := rfl
@[simp] theorem clearBoot_image (s : State) : (clearBoot s).image = s.image := rfl
@[simp] theorem clearBoot_vault (s : State) : (clearBoot s).vault = s.vault := rfl
@[simp] theorem clearBoot_pins (s : State) : (clearBoot s).pins = s.pins := rfl
@[simp] theorem clearBoot_uptime (s : State) : (clearBoot s).uptime = s.uptime := rfl
@[simp] theorem clearBoot_powered (s : State) : (clearBoot s).powered = s.powered := rfl
@[simp] theorem clearBoot_draws (s : State) : (clearBoot s).draws = s.draws := rfl
@[simp] theorem clearBoot_pending (s : State) : (clearBoot s).pending = s.pending := rfl

/-! ## markFired -/

@[simp] theorem markFired_kept (e : List Nat) (s : State) : (markFired e s).kept = s.kept := rfl
@[simp] theorem markFired_store (e : List Nat) (s : State) : (markFired e s).store = s.store := rfl
@[simp] theorem markFired_link (e : List Nat) (s : State) : (markFired e s).link = s.link := rfl
@[simp] theorem markFired_ism (e : List Nat) (s : State) : (markFired e s).ism = s.ism := rfl
@[simp] theorem markFired_keys (e : List Nat) (s : State) : (markFired e s).keys = s.keys := rfl
@[simp] theorem markFired_engine (e : List Nat) (s : State) : (markFired e s).engine = s.engine := rfl
@[simp] theorem markFired_digest (e : List Nat) (s : State) : (markFired e s).digest = s.digest := rfl
@[simp] theorem markFired_reader (e : List Nat) (s : State) : (markFired e s).reader = s.reader := rfl
@[simp] theorem markFired_port (e : List Nat) (s : State) : (markFired e s).port = s.port := rfl
@[simp] theorem markFired_gate (e : List Nat) (s : State) : (markFired e s).gate = s.gate := rfl
@[simp] theorem markFired_image (e : List Nat) (s : State) : (markFired e s).image = s.image := rfl
@[simp] theorem markFired_vault (e : List Nat) (s : State) : (markFired e s).vault = s.vault := rfl
@[simp] theorem markFired_biu (e : List Nat) (s : State) : (markFired e s).biu = s.biu := rfl
@[simp] theorem markFired_pins (e : List Nat) (s : State) : (markFired e s).pins = s.pins := rfl
@[simp] theorem markFired_uptime (e : List Nat) (s : State) : (markFired e s).uptime = s.uptime := rfl
@[simp] theorem markFired_powered (e : List Nat) (s : State) : (markFired e s).powered = s.powered := rfl
@[simp] theorem markFired_draws (e : List Nat) (s : State) : (markFired e s).draws = s.draws := rfl
@[simp] theorem markFired_pending (e : List Nat) (s : State) : (markFired e s).pending = s.pending := rfl

/-! ## suspendSlots -/

@[simp] theorem suspendSlots_kept (b : Byte) (s : State) : (suspendSlots b s).kept = s.kept := rfl
@[simp] theorem suspendSlots_store (b : Byte) (s : State) : (suspendSlots b s).store = s.store := rfl
@[simp] theorem suspendSlots_link (b : Byte) (s : State) : (suspendSlots b s).link = s.link := rfl
@[simp] theorem suspendSlots_ism (b : Byte) (s : State) : (suspendSlots b s).ism = s.ism := rfl
@[simp] theorem suspendSlots_engine (b : Byte) (s : State) : (suspendSlots b s).engine = s.engine := rfl
@[simp] theorem suspendSlots_digest (b : Byte) (s : State) : (suspendSlots b s).digest = s.digest := rfl
@[simp] theorem suspendSlots_reader (b : Byte) (s : State) : (suspendSlots b s).reader = s.reader := rfl
@[simp] theorem suspendSlots_port (b : Byte) (s : State) : (suspendSlots b s).port = s.port := rfl
@[simp] theorem suspendSlots_gate (b : Byte) (s : State) : (suspendSlots b s).gate = s.gate := rfl
@[simp] theorem suspendSlots_image (b : Byte) (s : State) : (suspendSlots b s).image = s.image := rfl
@[simp] theorem suspendSlots_vault (b : Byte) (s : State) : (suspendSlots b s).vault = s.vault := rfl
@[simp] theorem suspendSlots_biu (b : Byte) (s : State) : (suspendSlots b s).biu = s.biu := rfl
@[simp] theorem suspendSlots_reactions (b : Byte) (s : State) : (suspendSlots b s).reactions = s.reactions := rfl
@[simp] theorem suspendSlots_pins (b : Byte) (s : State) : (suspendSlots b s).pins = s.pins := rfl
@[simp] theorem suspendSlots_uptime (b : Byte) (s : State) : (suspendSlots b s).uptime = s.uptime := rfl
@[simp] theorem suspendSlots_powered (b : Byte) (s : State) : (suspendSlots b s).powered = s.powered := rfl
@[simp] theorem suspendSlots_draws (b : Byte) (s : State) : (suspendSlots b s).draws = s.draws := rfl
@[simp] theorem suspendSlots_pending (b : Byte) (s : State) : (suspendSlots b s).pending = s.pending := rfl

/-! ## enterFaultHold -/

@[simp] theorem enterFaultHold_kept (s : State) : (enterFaultHold s).kept = s.kept := rfl
@[simp] theorem enterFaultHold_store (s : State) : (enterFaultHold s).store = s.store := rfl
@[simp] theorem enterFaultHold_link (s : State) : (enterFaultHold s).link = s.link := rfl
@[simp] theorem enterFaultHold_ism (s : State) : (enterFaultHold s).ism = s.ism := rfl
@[simp] theorem enterFaultHold_keys (s : State) : (enterFaultHold s).keys = s.keys := rfl
@[simp] theorem enterFaultHold_engine (s : State) : (enterFaultHold s).engine = s.engine := rfl
@[simp] theorem enterFaultHold_digest (s : State) : (enterFaultHold s).digest = s.digest := rfl
@[simp] theorem enterFaultHold_reader (s : State) : (enterFaultHold s).reader = s.reader := rfl
@[simp] theorem enterFaultHold_image (s : State) : (enterFaultHold s).image = s.image := rfl
@[simp] theorem enterFaultHold_vault (s : State) : (enterFaultHold s).vault = s.vault := rfl
@[simp] theorem enterFaultHold_biu (s : State) : (enterFaultHold s).biu = s.biu := rfl
@[simp] theorem enterFaultHold_reactions (s : State) : (enterFaultHold s).reactions = s.reactions := rfl
@[simp] theorem enterFaultHold_pins (s : State) : (enterFaultHold s).pins = s.pins := rfl
@[simp] theorem enterFaultHold_uptime (s : State) : (enterFaultHold s).uptime = s.uptime := rfl
@[simp] theorem enterFaultHold_powered (s : State) : (enterFaultHold s).powered = s.powered := rfl
@[simp] theorem enterFaultHold_draws (s : State) : (enterFaultHold s).draws = s.draws := rfl
@[simp] theorem enterFaultHold_pending (s : State) : (enterFaultHold s).pending = s.pending := rfl

/-! ## dropCurrent -/

@[simp] theorem dropCurrent_kept (s : State) : (dropCurrent s).kept = s.kept := rfl
@[simp] theorem dropCurrent_store (s : State) : (dropCurrent s).store = s.store := rfl
@[simp] theorem dropCurrent_link (s : State) : (dropCurrent s).link = s.link := rfl
@[simp] theorem dropCurrent_ism (s : State) : (dropCurrent s).ism = s.ism := rfl
@[simp] theorem dropCurrent_keys (s : State) : (dropCurrent s).keys = s.keys := rfl
@[simp] theorem dropCurrent_engine (s : State) : (dropCurrent s).engine = s.engine := rfl
@[simp] theorem dropCurrent_port (s : State) : (dropCurrent s).port = s.port := rfl
@[simp] theorem dropCurrent_gate (s : State) : (dropCurrent s).gate = s.gate := rfl
@[simp] theorem dropCurrent_image (s : State) : (dropCurrent s).image = s.image := rfl
@[simp] theorem dropCurrent_vault (s : State) : (dropCurrent s).vault = s.vault := rfl
@[simp] theorem dropCurrent_biu (s : State) : (dropCurrent s).biu = s.biu := rfl
@[simp] theorem dropCurrent_reactions (s : State) : (dropCurrent s).reactions = s.reactions := rfl
@[simp] theorem dropCurrent_pins (s : State) : (dropCurrent s).pins = s.pins := rfl
@[simp] theorem dropCurrent_uptime (s : State) : (dropCurrent s).uptime = s.uptime := rfl
@[simp] theorem dropCurrent_powered (s : State) : (dropCurrent s).powered = s.powered := rfl
@[simp] theorem dropCurrent_draws (s : State) : (dropCurrent s).draws = s.draws := rfl
@[simp] theorem dropCurrent_pending (s : State) : (dropCurrent s).pending = s.pending := rfl

/-! ## refill -/

@[simp] theorem refill_kept (s : State) : (refill s).kept = s.kept := rfl
@[simp] theorem refill_store (s : State) : (refill s).store = s.store := rfl
@[simp] theorem refill_link (s : State) : (refill s).link = s.link := rfl
@[simp] theorem refill_ism (s : State) : (refill s).ism = s.ism := rfl
@[simp] theorem refill_keys (s : State) : (refill s).keys = s.keys := rfl
@[simp] theorem refill_engine (s : State) : (refill s).engine = s.engine := rfl
@[simp] theorem refill_digest (s : State) : (refill s).digest = s.digest := rfl
@[simp] theorem refill_port (s : State) : (refill s).port = s.port := rfl
@[simp] theorem refill_vault (s : State) : (refill s).vault = s.vault := rfl
@[simp] theorem refill_biu (s : State) : (refill s).biu = s.biu := rfl
@[simp] theorem refill_reactions (s : State) : (refill s).reactions = s.reactions := rfl
@[simp] theorem refill_pins (s : State) : (refill s).pins = s.pins := rfl
@[simp] theorem refill_uptime (s : State) : (refill s).uptime = s.uptime := rfl
@[simp] theorem refill_powered (s : State) : (refill s).powered = s.powered := rfl
@[simp] theorem refill_draws (s : State) : (refill s).draws = s.draws := rfl
@[simp] theorem refill_pending (s : State) : (refill s).pending = s.pending := rfl

/-! ## pump -/

@[simp] theorem pump_kept (s : State) : (pump s).kept = s.kept := rfl
@[simp] theorem pump_store (s : State) : (pump s).store = s.store := rfl
@[simp] theorem pump_link (s : State) : (pump s).link = s.link := rfl
@[simp] theorem pump_ism (s : State) : (pump s).ism = s.ism := rfl
@[simp] theorem pump_keys (s : State) : (pump s).keys = s.keys := rfl
@[simp] theorem pump_engine (s : State) : (pump s).engine = s.engine := rfl
@[simp] theorem pump_digest (s : State) : (pump s).digest = s.digest := rfl
@[simp] theorem pump_port (s : State) : (pump s).port = s.port := rfl
@[simp] theorem pump_vault (s : State) : (pump s).vault = s.vault := rfl
@[simp] theorem pump_biu (s : State) : (pump s).biu = s.biu := rfl
@[simp] theorem pump_reactions (s : State) : (pump s).reactions = s.reactions := rfl
@[simp] theorem pump_pins (s : State) : (pump s).pins = s.pins := rfl
@[simp] theorem pump_uptime (s : State) : (pump s).uptime = s.uptime := rfl
@[simp] theorem pump_powered (s : State) : (pump s).powered = s.powered := rfl
@[simp] theorem pump_draws (s : State) : (pump s).draws = s.draws := rfl
@[simp] theorem pump_pending (s : State) : (pump s).pending = s.pending := rfl

/-! ## appendRequest -/

@[simp] theorem appendRequest_kept (c i : Nat) (tag d : Bytes) (s : State) : (appendRequest c i tag d s).kept = s.kept := rfl
@[simp] theorem appendRequest_store (c i : Nat) (tag d : Bytes) (s : State) : (appendRequest c i tag d s).store = s.store := rfl
@[simp] theorem appendRequest_link (c i : Nat) (tag d : Bytes) (s : State) : (appendRequest c i tag d s).link = s.link := rfl
@[simp] theorem appendRequest_keys (c i : Nat) (tag d : Bytes) (s : State) : (appendRequest c i tag d s).keys = s.keys := rfl
@[simp] theorem appendRequest_engine (c i : Nat) (tag d : Bytes) (s : State) : (appendRequest c i tag d s).engine = s.engine := rfl
@[simp] theorem appendRequest_digest (c i : Nat) (tag d : Bytes) (s : State) : (appendRequest c i tag d s).digest = s.digest := rfl
@[simp] theorem appendRequest_reader (c i : Nat) (tag d : Bytes) (s : State) : (appendRequest c i tag d s).reader = s.reader := rfl
@[simp] theorem appendRequest_port (c i : Nat) (tag d : Bytes) (s : State) : (appendRequest c i tag d s).port = s.port := rfl
@[simp] theorem appendRequest_gate (c i : Nat) (tag d : Bytes) (s : State) : (appendRequest c i tag d s).gate = s.gate := rfl
@[simp] theorem appendRequest_image (c i : Nat) (tag d : Bytes) (s : State) : (appendRequest c i tag d s).image = s.image := rfl
@[simp] theorem appendRequest_vault (c i : Nat) (tag d : Bytes) (s : State) : (appendRequest c i tag d s).vault = s.vault := rfl
@[simp] theorem appendRequest_biu (c i : Nat) (tag d : Bytes) (s : State) : (appendRequest c i tag d s).biu = s.biu := rfl
@[simp] theorem appendRequest_reactions (c i : Nat) (tag d : Bytes) (s : State) : (appendRequest c i tag d s).reactions = s.reactions := rfl
@[simp] theorem appendRequest_pins (c i : Nat) (tag d : Bytes) (s : State) : (appendRequest c i tag d s).pins = s.pins := rfl
@[simp] theorem appendRequest_uptime (c i : Nat) (tag d : Bytes) (s : State) : (appendRequest c i tag d s).uptime = s.uptime := rfl
@[simp] theorem appendRequest_powered (c i : Nat) (tag d : Bytes) (s : State) : (appendRequest c i tag d s).powered = s.powered := rfl
@[simp] theorem appendRequest_draws (c i : Nat) (tag d : Bytes) (s : State) : (appendRequest c i tag d s).draws = s.draws := rfl
@[simp] theorem appendRequest_pending (c i : Nat) (tag d : Bytes) (s : State) : (appendRequest c i tag d s).pending = s.pending := rfl

/-! ## pendReboot -/

@[simp] theorem pendReboot_kept (s : State) : (pendReboot s).kept = s.kept := rfl
@[simp] theorem pendReboot_store (s : State) : (pendReboot s).store = s.store := rfl
@[simp] theorem pendReboot_link (s : State) : (pendReboot s).link = s.link := rfl
@[simp] theorem pendReboot_ism (s : State) : (pendReboot s).ism = s.ism := rfl
@[simp] theorem pendReboot_keys (s : State) : (pendReboot s).keys = s.keys := rfl
@[simp] theorem pendReboot_engine (s : State) : (pendReboot s).engine = s.engine := rfl
@[simp] theorem pendReboot_digest (s : State) : (pendReboot s).digest = s.digest := rfl
@[simp] theorem pendReboot_reader (s : State) : (pendReboot s).reader = s.reader := rfl
@[simp] theorem pendReboot_port (s : State) : (pendReboot s).port = s.port := rfl
@[simp] theorem pendReboot_image (s : State) : (pendReboot s).image = s.image := rfl
@[simp] theorem pendReboot_vault (s : State) : (pendReboot s).vault = s.vault := rfl
@[simp] theorem pendReboot_biu (s : State) : (pendReboot s).biu = s.biu := rfl
@[simp] theorem pendReboot_reactions (s : State) : (pendReboot s).reactions = s.reactions := rfl
@[simp] theorem pendReboot_pins (s : State) : (pendReboot s).pins = s.pins := rfl
@[simp] theorem pendReboot_uptime (s : State) : (pendReboot s).uptime = s.uptime := rfl
@[simp] theorem pendReboot_powered (s : State) : (pendReboot s).powered = s.powered := rfl
@[simp] theorem pendReboot_draws (s : State) : (pendReboot s).draws = s.draws := rfl
@[simp] theorem pendReboot_pending (s : State) : (pendReboot s).pending = s.pending := rfl

/-! ## beginGeneration -/

@[simp] theorem beginGeneration_kept (i : Nat) (p : Policy) (pr : Bool) (s : State) : (beginGeneration i p pr s).kept = s.kept := rfl
@[simp] theorem beginGeneration_store (i : Nat) (p : Policy) (pr : Bool) (s : State) : (beginGeneration i p pr s).store = s.store := rfl
@[simp] theorem beginGeneration_ism (i : Nat) (p : Policy) (pr : Bool) (s : State) : (beginGeneration i p pr s).ism = s.ism := rfl
@[simp] theorem beginGeneration_keys (i : Nat) (p : Policy) (pr : Bool) (s : State) : (beginGeneration i p pr s).keys = s.keys := rfl
@[simp] theorem beginGeneration_engine (i : Nat) (p : Policy) (pr : Bool) (s : State) : (beginGeneration i p pr s).engine = s.engine := rfl
@[simp] theorem beginGeneration_digest (i : Nat) (p : Policy) (pr : Bool) (s : State) : (beginGeneration i p pr s).digest = s.digest := rfl
@[simp] theorem beginGeneration_reader (i : Nat) (p : Policy) (pr : Bool) (s : State) : (beginGeneration i p pr s).reader = s.reader := rfl
@[simp] theorem beginGeneration_port (i : Nat) (p : Policy) (pr : Bool) (s : State) : (beginGeneration i p pr s).port = s.port := rfl
@[simp] theorem beginGeneration_gate (i : Nat) (p : Policy) (pr : Bool) (s : State) : (beginGeneration i p pr s).gate = s.gate := rfl
@[simp] theorem beginGeneration_image (i : Nat) (p : Policy) (pr : Bool) (s : State) : (beginGeneration i p pr s).image = s.image := rfl
@[simp] theorem beginGeneration_vault (i : Nat) (p : Policy) (pr : Bool) (s : State) : (beginGeneration i p pr s).vault = s.vault := rfl
@[simp] theorem beginGeneration_biu (i : Nat) (p : Policy) (pr : Bool) (s : State) : (beginGeneration i p pr s).biu = s.biu := rfl
@[simp] theorem beginGeneration_reactions (i : Nat) (p : Policy) (pr : Bool) (s : State) : (beginGeneration i p pr s).reactions = s.reactions := rfl
@[simp] theorem beginGeneration_pins (i : Nat) (p : Policy) (pr : Bool) (s : State) : (beginGeneration i p pr s).pins = s.pins := rfl
@[simp] theorem beginGeneration_uptime (i : Nat) (p : Policy) (pr : Bool) (s : State) : (beginGeneration i p pr s).uptime = s.uptime := rfl
@[simp] theorem beginGeneration_powered (i : Nat) (p : Policy) (pr : Bool) (s : State) : (beginGeneration i p pr s).powered = s.powered := rfl
@[simp] theorem beginGeneration_draws (i : Nat) (p : Policy) (pr : Bool) (s : State) : (beginGeneration i p pr s).draws = s.draws := rfl
@[simp] theorem beginGeneration_pending (i : Nat) (p : Policy) (pr : Bool) (s : State) : (beginGeneration i p pr s).pending = s.pending := rfl

/-! ## beginDecay -/

@[simp] theorem beginDecay_kept (i : Nat) (s : State) : (beginDecay i s).kept = s.kept := rfl
@[simp] theorem beginDecay_link (i : Nat) (s : State) : (beginDecay i s).link = s.link := rfl
@[simp] theorem beginDecay_ism (i : Nat) (s : State) : (beginDecay i s).ism = s.ism := rfl
@[simp] theorem beginDecay_keys (i : Nat) (s : State) : (beginDecay i s).keys = s.keys := rfl
@[simp] theorem beginDecay_engine (i : Nat) (s : State) : (beginDecay i s).engine = s.engine := rfl
@[simp] theorem beginDecay_digest (i : Nat) (s : State) : (beginDecay i s).digest = s.digest := rfl
@[simp] theorem beginDecay_reader (i : Nat) (s : State) : (beginDecay i s).reader = s.reader := rfl
@[simp] theorem beginDecay_port (i : Nat) (s : State) : (beginDecay i s).port = s.port := rfl
@[simp] theorem beginDecay_gate (i : Nat) (s : State) : (beginDecay i s).gate = s.gate := rfl
@[simp] theorem beginDecay_image (i : Nat) (s : State) : (beginDecay i s).image = s.image := rfl
@[simp] theorem beginDecay_biu (i : Nat) (s : State) : (beginDecay i s).biu = s.biu := rfl
@[simp] theorem beginDecay_reactions (i : Nat) (s : State) : (beginDecay i s).reactions = s.reactions := rfl
@[simp] theorem beginDecay_pins (i : Nat) (s : State) : (beginDecay i s).pins = s.pins := rfl
@[simp] theorem beginDecay_uptime (i : Nat) (s : State) : (beginDecay i s).uptime = s.uptime := rfl
@[simp] theorem beginDecay_powered (i : Nat) (s : State) : (beginDecay i s).powered = s.powered := rfl
@[simp] theorem beginDecay_draws (i : Nat) (s : State) : (beginDecay i s).draws = s.draws := rfl
@[simp] theorem beginDecay_pending (i : Nat) (s : State) : (beginDecay i s).pending = s.pending := rfl

/-! ## beginReset -/

@[simp] theorem beginReset_kept (r : Bool) (s : State) : (beginReset r s).kept = s.kept := rfl
@[simp] theorem beginReset_link (r : Bool) (s : State) : (beginReset r s).link = s.link := rfl
@[simp] theorem beginReset_ism (r : Bool) (s : State) : (beginReset r s).ism = s.ism := rfl
@[simp] theorem beginReset_keys (r : Bool) (s : State) : (beginReset r s).keys = s.keys := rfl
@[simp] theorem beginReset_engine (r : Bool) (s : State) : (beginReset r s).engine = s.engine := rfl
@[simp] theorem beginReset_digest (r : Bool) (s : State) : (beginReset r s).digest = s.digest := rfl
@[simp] theorem beginReset_reader (r : Bool) (s : State) : (beginReset r s).reader = s.reader := rfl
@[simp] theorem beginReset_port (r : Bool) (s : State) : (beginReset r s).port = s.port := rfl
@[simp] theorem beginReset_gate (r : Bool) (s : State) : (beginReset r s).gate = s.gate := rfl
@[simp] theorem beginReset_image (r : Bool) (s : State) : (beginReset r s).image = s.image := rfl
@[simp] theorem beginReset_biu (r : Bool) (s : State) : (beginReset r s).biu = s.biu := rfl
@[simp] theorem beginReset_reactions (r : Bool) (s : State) : (beginReset r s).reactions = s.reactions := rfl
@[simp] theorem beginReset_pins (r : Bool) (s : State) : (beginReset r s).pins = s.pins := rfl
@[simp] theorem beginReset_uptime (r : Bool) (s : State) : (beginReset r s).uptime = s.uptime := rfl
@[simp] theorem beginReset_powered (r : Bool) (s : State) : (beginReset r s).powered = s.powered := rfl
@[simp] theorem beginReset_draws (r : Bool) (s : State) : (beginReset r s).draws = s.draws := rfl
@[simp] theorem beginReset_pending (r : Bool) (s : State) : (beginReset r s).pending = s.pending := rfl

/-! ## updateVerification -/

@[simp] theorem updateVerification_kept (f : Verification → Verification) (s : State) : (updateVerification f s).kept = s.kept := rfl
@[simp] theorem updateVerification_store (f : Verification → Verification) (s : State) : (updateVerification f s).store = s.store := rfl
@[simp] theorem updateVerification_link (f : Verification → Verification) (s : State) : (updateVerification f s).link = s.link := rfl
@[simp] theorem updateVerification_ism (f : Verification → Verification) (s : State) : (updateVerification f s).ism = s.ism := rfl
@[simp] theorem updateVerification_keys (f : Verification → Verification) (s : State) : (updateVerification f s).keys = s.keys := rfl
@[simp] theorem updateVerification_engine (f : Verification → Verification) (s : State) : (updateVerification f s).engine = s.engine := rfl
@[simp] theorem updateVerification_digest (f : Verification → Verification) (s : State) : (updateVerification f s).digest = s.digest := rfl
@[simp] theorem updateVerification_reader (f : Verification → Verification) (s : State) : (updateVerification f s).reader = s.reader := rfl
@[simp] theorem updateVerification_port (f : Verification → Verification) (s : State) : (updateVerification f s).port = s.port := rfl
@[simp] theorem updateVerification_gate (f : Verification → Verification) (s : State) : (updateVerification f s).gate = s.gate := rfl
@[simp] theorem updateVerification_vault (f : Verification → Verification) (s : State) : (updateVerification f s).vault = s.vault := rfl
@[simp] theorem updateVerification_biu (f : Verification → Verification) (s : State) : (updateVerification f s).biu = s.biu := rfl
@[simp] theorem updateVerification_reactions (f : Verification → Verification) (s : State) : (updateVerification f s).reactions = s.reactions := rfl
@[simp] theorem updateVerification_pins (f : Verification → Verification) (s : State) : (updateVerification f s).pins = s.pins := rfl
@[simp] theorem updateVerification_uptime (f : Verification → Verification) (s : State) : (updateVerification f s).uptime = s.uptime := rfl
@[simp] theorem updateVerification_powered (f : Verification → Verification) (s : State) : (updateVerification f s).powered = s.powered := rfl
@[simp] theorem updateVerification_draws (f : Verification → Verification) (s : State) : (updateVerification f s).draws = s.draws := rfl
@[simp] theorem updateVerification_pending (f : Verification → Verification) (s : State) : (updateVerification f s).pending = s.pending := rfl

/-! ## pruneMarks -/

@[simp] theorem pruneMarks_kept (s : State) : (pruneMarks s).kept = s.kept := rfl
@[simp] theorem pruneMarks_store (s : State) : (pruneMarks s).store = s.store := rfl
@[simp] theorem pruneMarks_link (s : State) : (pruneMarks s).link = s.link := rfl
@[simp] theorem pruneMarks_ism (s : State) : (pruneMarks s).ism = s.ism := rfl
@[simp] theorem pruneMarks_engine (s : State) : (pruneMarks s).engine = s.engine := rfl
@[simp] theorem pruneMarks_digest (s : State) : (pruneMarks s).digest = s.digest := rfl
@[simp] theorem pruneMarks_reader (s : State) : (pruneMarks s).reader = s.reader := rfl
@[simp] theorem pruneMarks_port (s : State) : (pruneMarks s).port = s.port := rfl
@[simp] theorem pruneMarks_gate (s : State) : (pruneMarks s).gate = s.gate := rfl
@[simp] theorem pruneMarks_image (s : State) : (pruneMarks s).image = s.image := rfl
@[simp] theorem pruneMarks_vault (s : State) : (pruneMarks s).vault = s.vault := rfl
@[simp] theorem pruneMarks_biu (s : State) : (pruneMarks s).biu = s.biu := rfl
@[simp] theorem pruneMarks_reactions (s : State) : (pruneMarks s).reactions = s.reactions := rfl
@[simp] theorem pruneMarks_pins (s : State) : (pruneMarks s).pins = s.pins := rfl
@[simp] theorem pruneMarks_uptime (s : State) : (pruneMarks s).uptime = s.uptime := rfl
@[simp] theorem pruneMarks_powered (s : State) : (pruneMarks s).powered = s.powered := rfl
@[simp] theorem pruneMarks_draws (s : State) : (pruneMarks s).draws = s.draws := rfl
@[simp] theorem pruneMarks_pending (s : State) : (pruneMarks s).pending = s.pending := rfl

/-! ## clearMark -/

@[simp] theorem clearMark_kept (i : Nat) (s : State) : (clearMark i s).kept = s.kept := rfl
@[simp] theorem clearMark_store (i : Nat) (s : State) : (clearMark i s).store = s.store := rfl
@[simp] theorem clearMark_link (i : Nat) (s : State) : (clearMark i s).link = s.link := rfl
@[simp] theorem clearMark_ism (i : Nat) (s : State) : (clearMark i s).ism = s.ism := rfl
@[simp] theorem clearMark_engine (i : Nat) (s : State) : (clearMark i s).engine = s.engine := rfl
@[simp] theorem clearMark_digest (i : Nat) (s : State) : (clearMark i s).digest = s.digest := rfl
@[simp] theorem clearMark_reader (i : Nat) (s : State) : (clearMark i s).reader = s.reader := rfl
@[simp] theorem clearMark_port (i : Nat) (s : State) : (clearMark i s).port = s.port := rfl
@[simp] theorem clearMark_gate (i : Nat) (s : State) : (clearMark i s).gate = s.gate := rfl
@[simp] theorem clearMark_image (i : Nat) (s : State) : (clearMark i s).image = s.image := rfl
@[simp] theorem clearMark_vault (i : Nat) (s : State) : (clearMark i s).vault = s.vault := rfl
@[simp] theorem clearMark_biu (i : Nat) (s : State) : (clearMark i s).biu = s.biu := rfl
@[simp] theorem clearMark_reactions (i : Nat) (s : State) : (clearMark i s).reactions = s.reactions := rfl
@[simp] theorem clearMark_pins (i : Nat) (s : State) : (clearMark i s).pins = s.pins := rfl
@[simp] theorem clearMark_uptime (i : Nat) (s : State) : (clearMark i s).uptime = s.uptime := rfl
@[simp] theorem clearMark_powered (i : Nat) (s : State) : (clearMark i s).powered = s.powered := rfl
@[simp] theorem clearMark_draws (i : Nat) (s : State) : (clearMark i s).draws = s.draws := rfl
@[simp] theorem clearMark_pending (i : Nat) (s : State) : (clearMark i s).pending = s.pending := rfl

/-! ## clearPenalty -/

@[simp] theorem clearPenalty_kept (i : Nat) (s : State) : (clearPenalty i s).kept = s.kept := rfl
@[simp] theorem clearPenalty_store (i : Nat) (s : State) : (clearPenalty i s).store = s.store := rfl
@[simp] theorem clearPenalty_link (i : Nat) (s : State) : (clearPenalty i s).link = s.link := rfl
@[simp] theorem clearPenalty_ism (i : Nat) (s : State) : (clearPenalty i s).ism = s.ism := rfl
@[simp] theorem clearPenalty_keys (i : Nat) (s : State) : (clearPenalty i s).keys = s.keys := rfl
@[simp] theorem clearPenalty_engine (i : Nat) (s : State) : (clearPenalty i s).engine = s.engine := rfl
@[simp] theorem clearPenalty_digest (i : Nat) (s : State) : (clearPenalty i s).digest = s.digest := rfl
@[simp] theorem clearPenalty_reader (i : Nat) (s : State) : (clearPenalty i s).reader = s.reader := rfl
@[simp] theorem clearPenalty_port (i : Nat) (s : State) : (clearPenalty i s).port = s.port := rfl
@[simp] theorem clearPenalty_gate (i : Nat) (s : State) : (clearPenalty i s).gate = s.gate := rfl
@[simp] theorem clearPenalty_image (i : Nat) (s : State) : (clearPenalty i s).image = s.image := rfl
@[simp] theorem clearPenalty_biu (i : Nat) (s : State) : (clearPenalty i s).biu = s.biu := rfl
@[simp] theorem clearPenalty_reactions (i : Nat) (s : State) : (clearPenalty i s).reactions = s.reactions := rfl
@[simp] theorem clearPenalty_pins (i : Nat) (s : State) : (clearPenalty i s).pins = s.pins := rfl
@[simp] theorem clearPenalty_uptime (i : Nat) (s : State) : (clearPenalty i s).uptime = s.uptime := rfl
@[simp] theorem clearPenalty_powered (i : Nat) (s : State) : (clearPenalty i s).powered = s.powered := rfl
@[simp] theorem clearPenalty_draws (i : Nat) (s : State) : (clearPenalty i s).draws = s.draws := rfl
@[simp] theorem clearPenalty_pending (i : Nat) (s : State) : (clearPenalty i s).pending = s.pending := rfl

/-! ## setClock -/

@[simp] theorem setClock_kept (i : Nat) (s : State) : (setClock i s).kept = s.kept := rfl
@[simp] theorem setClock_store (i : Nat) (s : State) : (setClock i s).store = s.store := rfl
@[simp] theorem setClock_link (i : Nat) (s : State) : (setClock i s).link = s.link := rfl
@[simp] theorem setClock_ism (i : Nat) (s : State) : (setClock i s).ism = s.ism := rfl
@[simp] theorem setClock_keys (i : Nat) (s : State) : (setClock i s).keys = s.keys := rfl
@[simp] theorem setClock_engine (i : Nat) (s : State) : (setClock i s).engine = s.engine := rfl
@[simp] theorem setClock_digest (i : Nat) (s : State) : (setClock i s).digest = s.digest := rfl
@[simp] theorem setClock_reader (i : Nat) (s : State) : (setClock i s).reader = s.reader := rfl
@[simp] theorem setClock_port (i : Nat) (s : State) : (setClock i s).port = s.port := rfl
@[simp] theorem setClock_gate (i : Nat) (s : State) : (setClock i s).gate = s.gate := rfl
@[simp] theorem setClock_image (i : Nat) (s : State) : (setClock i s).image = s.image := rfl
@[simp] theorem setClock_biu (i : Nat) (s : State) : (setClock i s).biu = s.biu := rfl
@[simp] theorem setClock_reactions (i : Nat) (s : State) : (setClock i s).reactions = s.reactions := rfl
@[simp] theorem setClock_pins (i : Nat) (s : State) : (setClock i s).pins = s.pins := rfl
@[simp] theorem setClock_uptime (i : Nat) (s : State) : (setClock i s).uptime = s.uptime := rfl
@[simp] theorem setClock_powered (i : Nat) (s : State) : (setClock i s).powered = s.powered := rfl
@[simp] theorem setClock_draws (i : Nat) (s : State) : (setClock i s).draws = s.draws := rfl
@[simp] theorem setClock_pending (i : Nat) (s : State) : (setClock i s).pending = s.pending := rfl

/-! ## moveClock -/

@[simp] theorem moveClock_kept (i d : Nat) (s : State) : (moveClock i d s).kept = s.kept := rfl
@[simp] theorem moveClock_store (i d : Nat) (s : State) : (moveClock i d s).store = s.store := rfl
@[simp] theorem moveClock_link (i d : Nat) (s : State) : (moveClock i d s).link = s.link := rfl
@[simp] theorem moveClock_ism (i d : Nat) (s : State) : (moveClock i d s).ism = s.ism := rfl
@[simp] theorem moveClock_keys (i d : Nat) (s : State) : (moveClock i d s).keys = s.keys := rfl
@[simp] theorem moveClock_engine (i d : Nat) (s : State) : (moveClock i d s).engine = s.engine := rfl
@[simp] theorem moveClock_digest (i d : Nat) (s : State) : (moveClock i d s).digest = s.digest := rfl
@[simp] theorem moveClock_reader (i d : Nat) (s : State) : (moveClock i d s).reader = s.reader := rfl
@[simp] theorem moveClock_port (i d : Nat) (s : State) : (moveClock i d s).port = s.port := rfl
@[simp] theorem moveClock_gate (i d : Nat) (s : State) : (moveClock i d s).gate = s.gate := rfl
@[simp] theorem moveClock_image (i d : Nat) (s : State) : (moveClock i d s).image = s.image := rfl
@[simp] theorem moveClock_biu (i d : Nat) (s : State) : (moveClock i d s).biu = s.biu := rfl
@[simp] theorem moveClock_reactions (i d : Nat) (s : State) : (moveClock i d s).reactions = s.reactions := rfl
@[simp] theorem moveClock_pins (i d : Nat) (s : State) : (moveClock i d s).pins = s.pins := rfl
@[simp] theorem moveClock_uptime (i d : Nat) (s : State) : (moveClock i d s).uptime = s.uptime := rfl
@[simp] theorem moveClock_powered (i d : Nat) (s : State) : (moveClock i d s).powered = s.powered := rfl
@[simp] theorem moveClock_draws (i d : Nat) (s : State) : (moveClock i d s).draws = s.draws := rfl
@[simp] theorem moveClock_pending (i d : Nat) (s : State) : (moveClock i d s).pending = s.pending := rfl

/-! ## clearReset -/

@[simp] theorem clearReset_kept (r : Records) (s : State) : (clearReset r s).kept = s.kept := rfl
@[simp] theorem clearReset_store (r : Records) (s : State) : (clearReset r s).store = s.store := rfl
@[simp] theorem clearReset_link (r : Records) (s : State) : (clearReset r s).link = s.link := rfl
@[simp] theorem clearReset_ism (r : Records) (s : State) : (clearReset r s).ism = s.ism := rfl
@[simp] theorem clearReset_keys (r : Records) (s : State) : (clearReset r s).keys = s.keys := rfl
@[simp] theorem clearReset_engine (r : Records) (s : State) : (clearReset r s).engine = s.engine := rfl
@[simp] theorem clearReset_digest (r : Records) (s : State) : (clearReset r s).digest = s.digest := rfl
@[simp] theorem clearReset_reader (r : Records) (s : State) : (clearReset r s).reader = s.reader := rfl
@[simp] theorem clearReset_port (r : Records) (s : State) : (clearReset r s).port = s.port := rfl
@[simp] theorem clearReset_gate (r : Records) (s : State) : (clearReset r s).gate = s.gate := rfl
@[simp] theorem clearReset_image (r : Records) (s : State) : (clearReset r s).image = s.image := rfl
@[simp] theorem clearReset_biu (r : Records) (s : State) : (clearReset r s).biu = s.biu := rfl
@[simp] theorem clearReset_reactions (r : Records) (s : State) : (clearReset r s).reactions = s.reactions := rfl
@[simp] theorem clearReset_pins (r : Records) (s : State) : (clearReset r s).pins = s.pins := rfl
@[simp] theorem clearReset_uptime (r : Records) (s : State) : (clearReset r s).uptime = s.uptime := rfl
@[simp] theorem clearReset_powered (r : Records) (s : State) : (clearReset r s).powered = s.powered := rfl
@[simp] theorem clearReset_draws (r : Records) (s : State) : (clearReset r s).draws = s.draws := rfl
@[simp] theorem clearReset_pending (r : Records) (s : State) : (clearReset r s).pending = s.pending := rfl

/-! ## clearEntry -/

@[simp] theorem clearEntry_kept (i : Nat) (s : State) : (clearEntry i s).kept = s.kept := rfl
@[simp] theorem clearEntry_store (i : Nat) (s : State) : (clearEntry i s).store = s.store := rfl
@[simp] theorem clearEntry_link (i : Nat) (s : State) : (clearEntry i s).link = s.link := rfl
@[simp] theorem clearEntry_ism (i : Nat) (s : State) : (clearEntry i s).ism = s.ism := rfl
@[simp] theorem clearEntry_keys (i : Nat) (s : State) : (clearEntry i s).keys = s.keys := rfl
@[simp] theorem clearEntry_engine (i : Nat) (s : State) : (clearEntry i s).engine = s.engine := rfl
@[simp] theorem clearEntry_digest (i : Nat) (s : State) : (clearEntry i s).digest = s.digest := rfl
@[simp] theorem clearEntry_reader (i : Nat) (s : State) : (clearEntry i s).reader = s.reader := rfl
@[simp] theorem clearEntry_port (i : Nat) (s : State) : (clearEntry i s).port = s.port := rfl
@[simp] theorem clearEntry_gate (i : Nat) (s : State) : (clearEntry i s).gate = s.gate := rfl
@[simp] theorem clearEntry_image (i : Nat) (s : State) : (clearEntry i s).image = s.image := rfl
@[simp] theorem clearEntry_vault (i : Nat) (s : State) : (clearEntry i s).vault = s.vault := rfl
@[simp] theorem clearEntry_biu (i : Nat) (s : State) : (clearEntry i s).biu = s.biu := rfl
@[simp] theorem clearEntry_pins (i : Nat) (s : State) : (clearEntry i s).pins = s.pins := rfl
@[simp] theorem clearEntry_uptime (i : Nat) (s : State) : (clearEntry i s).uptime = s.uptime := rfl
@[simp] theorem clearEntry_powered (i : Nat) (s : State) : (clearEntry i s).powered = s.powered := rfl
@[simp] theorem clearEntry_draws (i : Nat) (s : State) : (clearEntry i s).draws = s.draws := rfl
@[simp] theorem clearEntry_pending (i : Nat) (s : State) : (clearEntry i s).pending = s.pending := rfl

/-! ## closeVerification -/

@[simp] theorem closeVerification_kept (s : State) : (closeVerification s).kept = s.kept := rfl
@[simp] theorem closeVerification_store (s : State) : (closeVerification s).store = s.store := rfl
@[simp] theorem closeVerification_link (s : State) : (closeVerification s).link = s.link := rfl
@[simp] theorem closeVerification_ism (s : State) : (closeVerification s).ism = s.ism := rfl
@[simp] theorem closeVerification_keys (s : State) : (closeVerification s).keys = s.keys := rfl
@[simp] theorem closeVerification_engine (s : State) : (closeVerification s).engine = s.engine := rfl
@[simp] theorem closeVerification_digest (s : State) : (closeVerification s).digest = s.digest := rfl
@[simp] theorem closeVerification_reader (s : State) : (closeVerification s).reader = s.reader := rfl
@[simp] theorem closeVerification_port (s : State) : (closeVerification s).port = s.port := rfl
@[simp] theorem closeVerification_gate (s : State) : (closeVerification s).gate = s.gate := rfl
@[simp] theorem closeVerification_vault (s : State) : (closeVerification s).vault = s.vault := rfl
@[simp] theorem closeVerification_biu (s : State) : (closeVerification s).biu = s.biu := rfl
@[simp] theorem closeVerification_reactions (s : State) : (closeVerification s).reactions = s.reactions := rfl
@[simp] theorem closeVerification_pins (s : State) : (closeVerification s).pins = s.pins := rfl
@[simp] theorem closeVerification_uptime (s : State) : (closeVerification s).uptime = s.uptime := rfl
@[simp] theorem closeVerification_powered (s : State) : (closeVerification s).powered = s.powered := rfl
@[simp] theorem closeVerification_draws (s : State) : (closeVerification s).draws = s.draws := rfl
@[simp] theorem closeVerification_pending (s : State) : (closeVerification s).pending = s.pending := rfl

/-! ## btnLevel -/

@[simp] theorem btnLevel_kept (p : Bool) (s : State) : (btnLevel p s).kept = s.kept := rfl
@[simp] theorem btnLevel_store (p : Bool) (s : State) : (btnLevel p s).store = s.store := rfl
@[simp] theorem btnLevel_link (p : Bool) (s : State) : (btnLevel p s).link = s.link := rfl
@[simp] theorem btnLevel_ism (p : Bool) (s : State) : (btnLevel p s).ism = s.ism := rfl
@[simp] theorem btnLevel_keys (p : Bool) (s : State) : (btnLevel p s).keys = s.keys := rfl
@[simp] theorem btnLevel_engine (p : Bool) (s : State) : (btnLevel p s).engine = s.engine := rfl
@[simp] theorem btnLevel_digest (p : Bool) (s : State) : (btnLevel p s).digest = s.digest := rfl
@[simp] theorem btnLevel_reader (p : Bool) (s : State) : (btnLevel p s).reader = s.reader := rfl
@[simp] theorem btnLevel_port (p : Bool) (s : State) : (btnLevel p s).port = s.port := rfl
@[simp] theorem btnLevel_gate (p : Bool) (s : State) : (btnLevel p s).gate = s.gate := rfl
@[simp] theorem btnLevel_image (p : Bool) (s : State) : (btnLevel p s).image = s.image := rfl
@[simp] theorem btnLevel_vault (p : Bool) (s : State) : (btnLevel p s).vault = s.vault := rfl
@[simp] theorem btnLevel_reactions (p : Bool) (s : State) : (btnLevel p s).reactions = s.reactions := rfl
@[simp] theorem btnLevel_pins (p : Bool) (s : State) : (btnLevel p s).pins = s.pins := rfl
@[simp] theorem btnLevel_uptime (p : Bool) (s : State) : (btnLevel p s).uptime = s.uptime := rfl
@[simp] theorem btnLevel_powered (p : Bool) (s : State) : (btnLevel p s).powered = s.powered := rfl
@[simp] theorem btnLevel_draws (p : Bool) (s : State) : (btnLevel p s).draws = s.draws := rfl
@[simp] theorem btnLevel_pending (p : Bool) (s : State) : (btnLevel p s).pending = s.pending := rfl

/-! ## debouncedPress -/

@[simp] theorem debouncedPress_kept (s : State) : (debouncedPress s).kept = s.kept := rfl
@[simp] theorem debouncedPress_store (s : State) : (debouncedPress s).store = s.store := rfl
@[simp] theorem debouncedPress_link (s : State) : (debouncedPress s).link = s.link := rfl
@[simp] theorem debouncedPress_ism (s : State) : (debouncedPress s).ism = s.ism := rfl
@[simp] theorem debouncedPress_keys (s : State) : (debouncedPress s).keys = s.keys := rfl
@[simp] theorem debouncedPress_engine (s : State) : (debouncedPress s).engine = s.engine := rfl
@[simp] theorem debouncedPress_digest (s : State) : (debouncedPress s).digest = s.digest := rfl
@[simp] theorem debouncedPress_reader (s : State) : (debouncedPress s).reader = s.reader := rfl
@[simp] theorem debouncedPress_port (s : State) : (debouncedPress s).port = s.port := rfl
@[simp] theorem debouncedPress_gate (s : State) : (debouncedPress s).gate = s.gate := rfl
@[simp] theorem debouncedPress_image (s : State) : (debouncedPress s).image = s.image := rfl
@[simp] theorem debouncedPress_vault (s : State) : (debouncedPress s).vault = s.vault := rfl
@[simp] theorem debouncedPress_reactions (s : State) : (debouncedPress s).reactions = s.reactions := rfl
@[simp] theorem debouncedPress_pins (s : State) : (debouncedPress s).pins = s.pins := rfl
@[simp] theorem debouncedPress_uptime (s : State) : (debouncedPress s).uptime = s.uptime := rfl
@[simp] theorem debouncedPress_powered (s : State) : (debouncedPress s).powered = s.powered := rfl
@[simp] theorem debouncedPress_draws (s : State) : (debouncedPress s).draws = s.draws := rfl
@[simp] theorem debouncedPress_pending (s : State) : (debouncedPress s).pending = s.pending := rfl

/-! ## startBurst -/

@[simp] theorem startBurst_kept (s : State) : (startBurst s).kept = s.kept := by
  unfold startBurst; split <;> rfl
@[simp] theorem startBurst_store (s : State) : (startBurst s).store = s.store := by
  unfold startBurst; split <;> rfl
@[simp] theorem startBurst_link (s : State) : (startBurst s).link = s.link := by
  unfold startBurst; split <;> rfl
@[simp] theorem startBurst_ism (s : State) : (startBurst s).ism = s.ism := by
  unfold startBurst; split <;> rfl
@[simp] theorem startBurst_keys (s : State) : (startBurst s).keys = s.keys := by
  unfold startBurst; split <;> rfl
@[simp] theorem startBurst_engine (s : State) : (startBurst s).engine = s.engine := by
  unfold startBurst; split <;> rfl
@[simp] theorem startBurst_digest (s : State) : (startBurst s).digest = s.digest := by
  unfold startBurst; split <;> rfl
@[simp] theorem startBurst_gate (s : State) : (startBurst s).gate = s.gate := by
  unfold startBurst; split <;> rfl
@[simp] theorem startBurst_image (s : State) : (startBurst s).image = s.image := by
  unfold startBurst; split <;> rfl
@[simp] theorem startBurst_vault (s : State) : (startBurst s).vault = s.vault := by
  unfold startBurst; split <;> rfl
@[simp] theorem startBurst_biu (s : State) : (startBurst s).biu = s.biu := by
  unfold startBurst; split <;> rfl
@[simp] theorem startBurst_reactions (s : State) : (startBurst s).reactions = s.reactions := by
  unfold startBurst; split <;> rfl
@[simp] theorem startBurst_pins (s : State) : (startBurst s).pins = s.pins := by
  unfold startBurst; split <;> rfl
@[simp] theorem startBurst_uptime (s : State) : (startBurst s).uptime = s.uptime := by
  unfold startBurst; split <;> rfl
@[simp] theorem startBurst_powered (s : State) : (startBurst s).powered = s.powered := by
  unfold startBurst; split <;> rfl
@[simp] theorem startBurst_draws (s : State) : (startBurst s).draws = s.draws := by
  unfold startBurst; split <;> rfl
@[simp] theorem startBurst_pending (s : State) : (startBurst s).pending = s.pending := by
  unfold startBurst; split <;> rfl

/-! ## startWrite -/

@[simp] theorem startWrite_kept (s : State) : (startWrite s).kept = s.kept := rfl
@[simp] theorem startWrite_link (s : State) : (startWrite s).link = s.link := rfl
@[simp] theorem startWrite_ism (s : State) : (startWrite s).ism = s.ism := rfl
@[simp] theorem startWrite_keys (s : State) : (startWrite s).keys = s.keys := rfl
@[simp] theorem startWrite_engine (s : State) : (startWrite s).engine = s.engine := rfl
@[simp] theorem startWrite_digest (s : State) : (startWrite s).digest = s.digest := rfl
@[simp] theorem startWrite_reader (s : State) : (startWrite s).reader = s.reader := rfl
@[simp] theorem startWrite_port (s : State) : (startWrite s).port = s.port := rfl
@[simp] theorem startWrite_gate (s : State) : (startWrite s).gate = s.gate := rfl
@[simp] theorem startWrite_image (s : State) : (startWrite s).image = s.image := rfl
@[simp] theorem startWrite_vault (s : State) : (startWrite s).vault = s.vault := rfl
@[simp] theorem startWrite_biu (s : State) : (startWrite s).biu = s.biu := rfl
@[simp] theorem startWrite_reactions (s : State) : (startWrite s).reactions = s.reactions := rfl
@[simp] theorem startWrite_pins (s : State) : (startWrite s).pins = s.pins := rfl
@[simp] theorem startWrite_uptime (s : State) : (startWrite s).uptime = s.uptime := rfl
@[simp] theorem startWrite_powered (s : State) : (startWrite s).powered = s.powered := rfl
@[simp] theorem startWrite_draws (s : State) : (startWrite s).draws = s.draws := rfl
@[simp] theorem startWrite_pending (s : State) : (startWrite s).pending = s.pending := rfl

/-! ## forwardSoc -/

@[simp] theorem forwardSoc_kept (s : State) : (forwardSoc s).kept = s.kept := rfl
@[simp] theorem forwardSoc_store (s : State) : (forwardSoc s).store = s.store := rfl
@[simp] theorem forwardSoc_link (s : State) : (forwardSoc s).link = s.link := rfl
@[simp] theorem forwardSoc_ism (s : State) : (forwardSoc s).ism = s.ism := rfl
@[simp] theorem forwardSoc_keys (s : State) : (forwardSoc s).keys = s.keys := rfl
@[simp] theorem forwardSoc_engine (s : State) : (forwardSoc s).engine = s.engine := rfl
@[simp] theorem forwardSoc_digest (s : State) : (forwardSoc s).digest = s.digest := rfl
@[simp] theorem forwardSoc_reader (s : State) : (forwardSoc s).reader = s.reader := rfl
@[simp] theorem forwardSoc_gate (s : State) : (forwardSoc s).gate = s.gate := rfl
@[simp] theorem forwardSoc_image (s : State) : (forwardSoc s).image = s.image := rfl
@[simp] theorem forwardSoc_vault (s : State) : (forwardSoc s).vault = s.vault := rfl
@[simp] theorem forwardSoc_biu (s : State) : (forwardSoc s).biu = s.biu := rfl
@[simp] theorem forwardSoc_reactions (s : State) : (forwardSoc s).reactions = s.reactions := rfl
@[simp] theorem forwardSoc_pins (s : State) : (forwardSoc s).pins = s.pins := rfl
@[simp] theorem forwardSoc_uptime (s : State) : (forwardSoc s).uptime = s.uptime := rfl
@[simp] theorem forwardSoc_powered (s : State) : (forwardSoc s).powered = s.powered := rfl
@[simp] theorem forwardSoc_draws (s : State) : (forwardSoc s).draws = s.draws := rfl
@[simp] theorem forwardSoc_pending (s : State) : (forwardSoc s).pending = s.pending := rfl

/-! ## socCsRise -/

@[simp] theorem socCsRise_kept (r : Bool) (s : State) : (socCsRise r s).kept = s.kept := rfl
@[simp] theorem socCsRise_store (r : Bool) (s : State) : (socCsRise r s).store = s.store := rfl
@[simp] theorem socCsRise_link (r : Bool) (s : State) : (socCsRise r s).link = s.link := rfl
@[simp] theorem socCsRise_ism (r : Bool) (s : State) : (socCsRise r s).ism = s.ism := rfl
@[simp] theorem socCsRise_keys (r : Bool) (s : State) : (socCsRise r s).keys = s.keys := rfl
@[simp] theorem socCsRise_engine (r : Bool) (s : State) : (socCsRise r s).engine = s.engine := rfl
@[simp] theorem socCsRise_digest (r : Bool) (s : State) : (socCsRise r s).digest = s.digest := rfl
@[simp] theorem socCsRise_reader (r : Bool) (s : State) : (socCsRise r s).reader = s.reader := rfl
@[simp] theorem socCsRise_gate (r : Bool) (s : State) : (socCsRise r s).gate = s.gate := rfl
@[simp] theorem socCsRise_image (r : Bool) (s : State) : (socCsRise r s).image = s.image := rfl
@[simp] theorem socCsRise_vault (r : Bool) (s : State) : (socCsRise r s).vault = s.vault := rfl
@[simp] theorem socCsRise_biu (r : Bool) (s : State) : (socCsRise r s).biu = s.biu := rfl
@[simp] theorem socCsRise_reactions (r : Bool) (s : State) : (socCsRise r s).reactions = s.reactions := rfl
@[simp] theorem socCsRise_pins (r : Bool) (s : State) : (socCsRise r s).pins = s.pins := rfl
@[simp] theorem socCsRise_uptime (r : Bool) (s : State) : (socCsRise r s).uptime = s.uptime := rfl
@[simp] theorem socCsRise_powered (r : Bool) (s : State) : (socCsRise r s).powered = s.powered := rfl
@[simp] theorem socCsRise_draws (r : Bool) (s : State) : (socCsRise r s).draws = s.draws := rfl
@[simp] theorem socCsRise_pending (r : Bool) (s : State) : (socCsRise r s).pending = s.pending := rfl

/-! ## imposePenalties -/

@[simp] theorem imposePenalties_kept (s : State) : (imposePenalties s).kept = s.kept := rfl
@[simp] theorem imposePenalties_store (s : State) : (imposePenalties s).store = s.store := rfl
@[simp] theorem imposePenalties_link (s : State) : (imposePenalties s).link = s.link := rfl
@[simp] theorem imposePenalties_ism (s : State) : (imposePenalties s).ism = s.ism := rfl
@[simp] theorem imposePenalties_keys (s : State) : (imposePenalties s).keys = s.keys := rfl
@[simp] theorem imposePenalties_engine (s : State) : (imposePenalties s).engine = s.engine := rfl
@[simp] theorem imposePenalties_digest (s : State) : (imposePenalties s).digest = s.digest := rfl
@[simp] theorem imposePenalties_reader (s : State) : (imposePenalties s).reader = s.reader := rfl
@[simp] theorem imposePenalties_port (s : State) : (imposePenalties s).port = s.port := rfl
@[simp] theorem imposePenalties_gate (s : State) : (imposePenalties s).gate = s.gate := rfl
@[simp] theorem imposePenalties_image (s : State) : (imposePenalties s).image = s.image := rfl
@[simp] theorem imposePenalties_biu (s : State) : (imposePenalties s).biu = s.biu := rfl
@[simp] theorem imposePenalties_reactions (s : State) : (imposePenalties s).reactions = s.reactions := rfl
@[simp] theorem imposePenalties_pins (s : State) : (imposePenalties s).pins = s.pins := rfl
@[simp] theorem imposePenalties_uptime (s : State) : (imposePenalties s).uptime = s.uptime := rfl
@[simp] theorem imposePenalties_powered (s : State) : (imposePenalties s).powered = s.powered := rfl
@[simp] theorem imposePenalties_draws (s : State) : (imposePenalties s).draws = s.draws := rfl
@[simp] theorem imposePenalties_pending (s : State) : (imposePenalties s).pending = s.pending := rfl

/-! ## The fields that change -/

@[simp] theorem State.settle_pins (s : State) :
    s.settle.pins = { s.pins with 
      socHold := s.held, alert := s.alertLevel, ind := s.indLit, past := noteMoment s.moment s.pins.past } := rfl
@[simp] theorem State.raise_flags (f : Flag) (s : State) : (s.raise f).link.flags = s.link.flags ||| f.set := rfl
@[simp] theorem State.handOver_store (op : StoreOp) (a : After) (s : State) :
    (s.handOver op a).store = { s.store with waiting := s.store.waiting ++ [⟨op, a⟩] } := rfl
@[simp] theorem sends_pins (b : Bytes) (s : State) : (sends b s).pins = { s.pins with linkDo := b, past := [] } := rfl
@[simp] theorem sendsHeld_pins (n : Nat) (s : State) :
    (sendsHeld n s).pins = { s.pins with linkDo := List.replicate n 0xFF, past := [] } := rfl
@[simp] theorem sendsBusy_pins (n : Nat) (s : State) :
    (sendsBusy n s).pins = { s.pins with linkDo := List.replicate n 0xEE, past := [] } := rfl
@[simp] theorem answerAs_link (i : Byte) (st : Status) (p : Bytes) (s : State) :
    (answerAs i st p s).link =
      { s.link with state := .ready, request := none, service := .none, reply := some ⟨st, s.marker, i, p⟩ } := rfl
@[simp] theorem answerAs_digest (i : Byte) (st : Status) (p : Bytes) (s : State) :
    (answerAs i st p s).digest = s.digest.clear .link := rfl
@[simp] theorem answerAs_vault (i : Byte) (st : Status) (p : Bytes) (s : State) :
    (answerAs i st p s).vault = s.vault.releaseRequest := rfl
@[simp] theorem beginDigest_digest (k : Option Bytes) (b : Bytes) (sv : Service) (s : State) :
    (beginDigest k b sv s).digest = s.digest.beginLink k b := rfl
@[simp] theorem beginDigest_link (k : Option Bytes) (b : Bytes) (sv : Service) (s : State) :
    (beginDigest k b sv s).link = { s.link with service := sv } := rfl
@[simp] theorem clearBoot_ism (s : State) : (clearBoot s).ism = ismAtStart := rfl
@[simp] theorem clearBoot_engine (s : State) : (clearBoot s).engine = [] := rfl
@[simp] theorem releaseCycle_link (s : State) : (releaseCycle s).link =
    { s.link with state := .idle, request := none, service := .none, reply := none, flags := 0 } := rfl
@[simp] theorem appendRequest_ism (c i : Nat) (tag d : Bytes) (s : State) :
    (appendRequest c i tag d s).ism = s.ism.append c .request d (some i) tag := rfl
@[simp] theorem closeWindow_window (s : State) : (closeWindow s).biu.window = none := rfl
@[simp] theorem openWindow_window (s : State) : (openWindow s).biu.window = some (s.uptime + 30000) := rfl

end Sys2Proof.Machine
end

