-- ==== Sys2Proof/Laws/Boot.lean ====
section
/-! SUPPORT. What a start of measurement does in one lemma (R67), what the flash work of Image Acceptance and the Boot Gate leaves alone, and what a
condition event does where its actions do not hold the SoC (R160, R161). -/

namespace Sys2Proof.Machine

/-! ## Flash work: jobs placed and cancelled, and a verification stopped or rejected -/

/-- `t` is `s` but for jobs, the contexts that read them, image operations, and what has been handed to the store. -/
structure FlashWork (s t : State) : Prop where
  kept : t.kept = s.kept
  link : t.link = s.link
  ism : t.ism = s.ism
  keys : t.keys = s.keys
  vault : t.vault = s.vault
  biu : t.biu = s.biu
  reactions : t.reactions = s.reactions
  port : t.port = s.port
  pins : t.pins = s.pins
  uptime : t.uptime = s.uptime
  powered : t.powered = s.powered
  draws : t.draws = s.draws
  pending : t.pending = s.pending
  linkContext : t.digest.link = s.digest.link
  engine : ∀ op ∈ t.engine, op ∈ s.engine
  making : t.store.making = s.store.making
  gate : t.gate = { s.gate with
    unplaced := t.gate.unplaced, scanRound := t.gate.scanRound, selection := t.gate.selection }

theorem FlashWork.refl (s : State) : FlashWork s s :=
  ⟨rfl, rfl, rfl, rfl, rfl, rfl, rfl, rfl, rfl, rfl, rfl, rfl, rfl, rfl, fun _ h => h, rfl, rfl⟩

theorem FlashWork.trans {s t u : State} (h : FlashWork s t) (k : FlashWork t u) : FlashWork s u :=
  ⟨k.kept.trans h.kept, k.link.trans h.link, k.ism.trans h.ism, k.keys.trans h.keys, k.vault.trans h.vault,
    k.biu.trans h.biu, k.reactions.trans h.reactions, k.port.trans h.port, k.pins.trans h.pins,
    k.uptime.trans h.uptime, k.powered.trans h.powered, k.draws.trans h.draws, k.pending.trans h.pending,
    k.linkContext.trans h.linkContext, fun op m => h.engine op (k.engine op m), k.making.trans h.making,
    by rw [k.gate, h.gate]⟩

theorem refill_work (s : State) : FlashWork s (refill s) :=
  ⟨rfl, rfl, rfl, rfl, rfl, rfl, rfl, rfl, rfl, rfl, rfl, rfl, rfl, rfl, fun _ h => h, rfl, rfl⟩

theorem pump_work (s : State) : FlashWork s (pump s) :=
  ⟨rfl, rfl, rfl, rfl, rfl, rfl, rfl, rfl, rfl, rfl, rfl, rfl, rfl, rfl, fun _ h => h, rfl, rfl⟩

theorem dropCurrent_work (s : State) : FlashWork s (dropCurrent s) :=
  ⟨rfl, rfl, rfl, rfl, rfl, rfl, rfl, rfl, rfl, rfl, rfl, rfl, rfl, rfl, fun _ h => h, rfl, rfl⟩

theorem cancelJobs_work (p : Purpose) (s : State) : FlashWork s (cancelJobs p s) := by
  unfold cancelJobs
  dsimp only
  split
  · split
    · split
      · exact ⟨rfl, rfl, rfl, rfl, rfl, rfl, rfl, rfl, rfl, rfl, rfl, rfl, rfl, rfl, fun _ h => h, rfl, rfl⟩
      · exact ⟨rfl, rfl, rfl, rfl, rfl, rfl, rfl, rfl, rfl, rfl, rfl, rfl, rfl, rfl, fun _ h => h, rfl, rfl⟩
    · exact ⟨rfl, rfl, rfl, rfl, rfl, rfl, rfl, rfl, rfl, rfl, rfl, rfl, rfl, rfl, fun _ h => h, rfl, rfl⟩
  · exact ⟨rfl, rfl, rfl, rfl, rfl, rfl, rfl, rfl, rfl, rfl, rfl, rfl, rfl, rfl, fun _ h => h, rfl, rfl⟩

theorem stopVerification_work (s : State) : FlashWork s (stopVerification s) := by
  refine FlashWork.trans ?_ ((cancelJobs_work .imageVerify _).trans (pump_work _))
  exact ⟨rfl, rfl, rfl, rfl, rfl, rfl, rfl, rfl, rfl, rfl, rfl, rfl, rfl, rfl,
    fun _ h => (List.mem_filter.1 h).1, rfl, rfl⟩

theorem handOver_work (op : StoreOp) (a : After) (s : State) : FlashWork s (s.handOver op a) :=
  ⟨rfl, rfl, rfl, rfl, rfl, rfl, rfl, rfl, rfl, rfl, rfl, rfl, rfl, rfl, fun _ h => h, rfl, rfl⟩

theorem reject_work (r : RejectReason) (s : State) : FlashWork s (reject r s) :=
  (stopVerification_work s).trans (handOver_work _ _ _)

theorem interruptStep_work (s : State) : FlashWork s (interruptStep s) := by
  unfold interruptStep
  split
  · split
    · dsimp only
      split
      · refine FlashWork.trans ?_ (reject_work .interrupted _)
        exact ⟨rfl, rfl, rfl, rfl, rfl, rfl, rfl, rfl, rfl, rfl, rfl, rfl, rfl, rfl, fun _ h => h, rfl, rfl⟩
      · refine FlashWork.trans ?_ (stopVerification_work _)
        exact ⟨rfl, rfl, rfl, rfl, rfl, rfl, rfl, rfl, rfl, rfl, rfl, rfl, rfl, rfl, fun _ h => h, rfl, rfl⟩
    · exact .refl s
  · exact .refl s

theorem cancelAtStart_work (s : State) : FlashWork s (cancelAtStart s) := by
  refine FlashWork.trans ?_ ((cancelJobs_work .imageVerify _).trans (cancelJobs_work .scan _))
  exact ⟨rfl, rfl, rfl, rfl, rfl, rfl, rfl, rfl, rfl, rfl, rfl, rfl, rfl, rfl, fun _ h => h, rfl, rfl⟩

/-! ## The start of measurement (R67) -/

/-- A start of measurement is the release cycle, the clearing of the boot and its beginning, and flash work. -/
theorem startOfMeasurement_work (shortPress : Bool) (s : State) :
    FlashWork { clearBoot (releaseCycle s) with gate := (clearBoot (releaseCycle s)).gate.begin shortPress }
      (startOfMeasurement shortPress s) := by
  have h1 := cancelAtStart_work (clearBoot (releaseCycle s))
  unfold startOfMeasurement
  refine FlashWork.trans ?_ (interruptStep_work _)
  refine FlashWork.trans ?_ (pump_work _)
  exact ⟨h1.kept, h1.link, h1.ism, h1.keys, h1.vault, h1.biu, h1.reactions, h1.port, h1.pins, h1.uptime, h1.powered,
    h1.draws, h1.pending, h1.linkContext, h1.engine, h1.making, by
      simp only [BootGate.begin]
      rw [h1.gate]⟩

/-- A start of measurement sends nothing and leaves what was sent (R167). -/
@[simp] theorem startOfMeasurement_pins (shortPress : Bool) (s : State) :
    (startOfMeasurement shortPress s).pins = s.pins :=
  (startOfMeasurement_work shortPress s).pins

/-- Jobs join the list at its end, and only jobs that waited to. -/
theorem placeAll_waiting (P : Job → Prop) (jobs : List Job) (r : FlashReader) (h : ∀ j ∈ jobs, P j) (hr : ∀ j ∈ r.waiting, P j) :
    ∀ j ∈ (placeAll jobs r).2.waiting, P j := by
  induction jobs generalizing r with
  | nil => exact hr
  | cons first rest ih =>
    unfold placeAll
    split
    · refine ih _ (fun j m => h j (by simp [m])) fun j m => ?_
      rcases List.mem_append.1 m with m | m
      · exact hr j m
      · exact h j (by simp_all)
    · exact hr

/-- Jobs that join change nothing of a reader but its waiting jobs. -/
theorem placeAll_reader (jobs : List Job) (r : FlashReader) :
    (placeAll jobs r).2 = { r with waiting := (placeAll jobs r).2.waiting } := by
  induction jobs generalizing r with
  | nil => rfl
  | cons first rest ih =>
    unfold placeAll
    split
    · rw [ih]
    · rfl

/-- What stays unplaced waited to join. -/
theorem placeAll_unplaced (jobs : List Job) (r : FlashReader) : ∀ j ∈ (placeAll jobs r).1, j ∈ jobs := by
  induction jobs generalizing r with
  | nil => simp [placeAll]
  | cons first rest ih =>
    unfold placeAll
    split
    · exact fun j m => by simp [ih _ j m]
    · exact fun j m => m

/-! ## Jobs cancelled at a start of measurement (R54) -/

/-- Only BOOT_MEASURE jobs wait, placed or not. -/
structure State.OnlyMeasures (t : State) : Prop where
  waiting : ∀ j ∈ t.reader.waiting, j.purpose = .bootMeasure
  unplaced : ∀ j ∈ t.gate.unplaced, j.purpose = .bootMeasure
  image : t.image.unplaced = none
  round : t.gate.scanRound = none

/-- Where only BOOT_MEASURE jobs wait, jobs that join and start leave the cancelled ones as they are. -/
theorem pump_jobsCancelled {s t : State} (h : JobsCancelled s t) (ht : t.OnlyMeasures) :
    JobsCancelled s (pump t) ∧ (pump t).OnlyMeasures := by
  have himg : (placeAll t.image.unplaced.toList (placeAll t.gate.unplaced t.reader).2) = ([], (placeAll t.gate.unplaced t.reader).2) := by
    simp [ht.image, placeAll]
  have hr : (refill t).reader = { t.reader with waiting := (refill t).reader.waiting } := by
    simp only [refill, himg, ht.round, Option.map_none, Option.getD_none, placeAll]
    exact placeAll_reader _ _
  have hw : ∀ j ∈ (refill t).reader.waiting, j.purpose = .bootMeasure := by
    simp only [refill, himg, ht.round, Option.map_none, Option.getD_none, placeAll]
    exact placeAll_waiting _ _ _ ht.unplaced ht.waiting
  have hn : ∀ j, (refill t).reader.next = some j → j ∈ (refill t).reader.waiting := by
    intro j hj
    unfold FlashReader.next at hj
    have key : ∀ p : Job → Bool, (refill t).reader.waiting.find? p = some j → j ∈ (refill t).reader.waiting :=
      fun p e => List.mem_of_find?_eq_some e
    simp only [Option.or_eq_some_iff] at hj
    rcases hj with e | ⟨_, e | ⟨_, e⟩⟩ <;> exact key _ e
  have hs : (pump t).reader = (refill t).reader ∨ ∃ j, t.reader.current = none ∧ j.purpose = .bootMeasure ∧
      (pump t).reader = ⟨(refill t).reader.waiting.erase j, some j, false, false, [], none⟩ := by
    simp only [pump, FlashReader.start]
    split
    · rename_i j hc hj
      exact .inr ⟨j, by rw [hr] at hc; exact hc, hw j (hn j hj), rfl⟩
    · exact .inl rfl
  have hd : (pump t).digest = t.digest := rfl
  constructor
  · rcases hs with e | ⟨b, hc, hb, e⟩
    · constructor
      · rw [e]; exact hw
      · rw [e, hr]; exact h.gone
      · rw [hd]; exact h.context
      · rw [e, hr]; exact h.marked
    · constructor
      · rw [e]; exact fun j m => hw j (List.mem_of_mem_erase m)
      · rw [e]; intro _ j m; simp only [Option.some.injEq] at m; rw [← m]; exact hb
      · rw [hd]; exact h.context
      · intro x j y z w
        have := h.marked x j y z w
        rw [hc] at this
        cases this.1
  · constructor
    · rcases hs with e | ⟨b, hc, hb, e⟩
      · rw [e]; exact hw
      · rw [e]; exact fun j m => hw j (List.mem_of_mem_erase m)
    · simp only [pump, refill]
      exact fun j m => ht.unplaced j (placeAll_unplaced _ _ j m)
    · simp [pump, refill, himg]
    · simp [pump, refill, ht.round]

/-- Where a cancelled purpose has no job left, cancelling it again leaves what a cancellation left. -/
theorem cancelJobs_jobsCancelled (p : Purpose) {s t : State} (h : JobsCancelled s t) (ht : t.OnlyMeasures) :
    JobsCancelled s (cancelJobs p t) ∧ (cancelJobs p t).OnlyMeasures := by
  have hw : ∀ j ∈ t.reader.waiting.filter (fun j => j.purpose != p), j.purpose = .bootMeasure :=
    fun j m => ht.waiting j (List.mem_filter.1 m).1
  unfold cancelJobs
  dsimp only
  split
  · rename_i j hc
    split
    · rename_i hj
      split
      · exact ⟨⟨hw, h.gone, h.context, fun x y z w v => ⟨(h.marked x y z w v).1, (h.marked x y z w v).2.1, rfl⟩⟩, ⟨hw, ht.unplaced, ht.image, ht.round⟩⟩
      · rename_i hb
        refine ⟨⟨hw, fun _ _ m => by simp [dropCurrent] at m, fun _ _ _ _ => rfl, fun x y z w v => ?_⟩,
          ⟨hw, ht.unplaced, ht.image, ht.round⟩⟩
        exact absurd (h.marked x y z w v).2.1 hb
    · exact ⟨⟨hw, h.gone, h.context, h.marked⟩, ⟨hw, ht.unplaced, ht.image, ht.round⟩⟩
  · exact ⟨⟨hw, h.gone, h.context, h.marked⟩, ⟨hw, ht.unplaced, ht.image, ht.round⟩⟩

/-- The cancellations of a start of measurement leave BOOT_MEASURE jobs alone (R54). -/
theorem cancelAtStart_jobs (s : State) :
    JobsCancelled s (cancelAtStart s) ∧
      (∀ j ∈ (cancelAtStart s).reader.waiting, j.purpose = .bootMeasure) ∧ (cancelAtStart s).gate.unplaced = s.gate.unplaced ∧
      (cancelAtStart s).image = ⟨s.image.verification.map fun v => { v with deadline := none }, none⟩ := by
  have both : ∀ j ∈ (s.reader.waiting.filter fun j => j.purpose != .imageVerify).filter fun j => j.purpose != .scan,
      j.purpose = .bootMeasure := by
    intro j m
    simp only [List.mem_filter, bne_iff_ne, ne_eq] at m
    cases h : j.purpose <;> simp_all
  unfold cancelAtStart cancelJobs
  dsimp only
  rcases hc : s.reader.current with _ | j
  · exact ⟨⟨both, fun _ j m => by simp at m, fun _ j m => by simp [hc] at m, fun _ j m => by simp [hc] at m⟩, both, rfl, rfl⟩
  · cases hb : s.reader.bursting <;> cases hp : j.purpose <;>
      simp only [hp, dropCurrent, reduceCtorEq, if_true, if_false, Bool.false_eq_true] <;>
      refine ⟨⟨both, ?_, ?_, ?_⟩, both, by simp⟩ <;> simp_all [DigestEngine.clear, DigestEngine.withContext]

/-- A verification stopped where a start of measurement has cancelled its jobs (R106). -/
theorem stopVerification_jobs {s t : State} (h : JobsCancelled s t) (ht : t.OnlyMeasures) :
    JobsCancelled s (stopVerification t) ∧ (stopVerification t).OnlyMeasures := by
  obtain ⟨h1, h2⟩ := cancelJobs_jobsCancelled .imageVerify
    (t := { t with image := ⟨none, none⟩, engine := t.engine.filter fun op => !op.isVerify })
    (s := s) ⟨h.waiting, h.gone, h.context, h.marked⟩ ⟨ht.waiting, ht.unplaced, rfl, ht.round⟩
  exact pump_jobsCancelled h1 h2

/-- Image Acceptance's step leaves the cancelled jobs as they are (R54, R67). -/
theorem interruptStep_jobs {s t : State} (h : JobsCancelled s t) (ht : t.OnlyMeasures) :
    JobsCancelled s (interruptStep t) := by
  unfold interruptStep
  split
  · split
    · dsimp only
      have := fun x => stopVerification_jobs (s := s) (t := { t with gate := { t.gate with selection := x } })
        ⟨h.waiting, h.gone, h.context, h.marked⟩ ⟨ht.waiting, ht.unplaced, ht.image, ht.round⟩
      split
      · obtain ⟨k, -⟩ := this _
        exact ⟨k.waiting, k.gone, k.context, k.marked⟩
      · exact (this _).1
    · exact h
  · exact h

/-! ## What a start of measurement leaves (R67, R106, R183) -/

/-- What stopping a verification leaves: its record closed, its operation gone, and nothing handed to the store (R24, R54). -/
theorem stopVerification_stopped (s : State) :
    (stopVerification s).image = ⟨none, none⟩ ∧
      (stopVerification s).engine = s.engine.filter (fun op => !op.isVerify) ∧
      (stopVerification s).store = s.store ∧ (stopVerification s).kept = s.kept := by
  unfold stopVerification pump cancelJobs refill
  dsimp only
  split
  · split
    · split <;> exact ⟨rfl, rfl, rfl, rfl⟩
    · exact ⟨rfl, rfl, rfl, rfl⟩
  · exact ⟨rfl, rfl, rfl, rfl⟩

/-- A start of measurement up to Image Acceptance's step. -/
def State.beforeInterrupt (shortPress : Bool) (s : State) : State :=
  pump { cancelAtStart (clearBoot (releaseCycle s)) with gate := (cancelAtStart (clearBoot (releaseCycle s))).gate.begin shortPress }

/-- The IMAGE_VERIFY and SCAN jobs are cancelled at a start of measurement (R54). -/
theorem startOfMeasurement_jobs (shortPress : Bool) {s : State} (hs : ∀ j ∈ s.gate.unplaced, j.purpose = .bootMeasure) :
    JobsCancelled s (startOfMeasurement shortPress s) := by
  obtain ⟨h, hw, hg, hi⟩ := cancelAtStart_jobs (clearBoot (releaseCycle s))
  have h' : JobsCancelled s (cancelAtStart (clearBoot (releaseCycle s))) := ⟨h.waiting, h.gone, h.context, h.marked⟩
  have hp := pump_jobsCancelled (s := s) (t := { cancelAtStart (clearBoot (releaseCycle s)) with
    gate := (cancelAtStart (clearBoot (releaseCycle s))).gate.begin shortPress }) ⟨h'.waiting, h'.gone, h'.context, h'.marked⟩
    ⟨hw, by simp only [BootGate.begin, hg]; exact hs, by rw [hi], rfl⟩
  exact interruptStep_jobs hp.1 hp.2

/-- The store, the verification and the selection up to Image Acceptance's step (R67, R183; log entry 14). -/
theorem State.beforeInterrupt_eqs (shortPress : Bool) (s : State) :
    (s.beforeInterrupt shortPress).store = s.store.orphaned ∧
      (s.beforeInterrupt shortPress).image = ⟨s.image.verification.map fun v => { v with deadline := none }, none⟩ ∧
      (s.beforeInterrupt shortPress).gate.selection = .awaiting shortPress false ∧
      (s.beforeInterrupt shortPress).gate.scanRound = none ∧
      (s.beforeInterrupt shortPress).kept = s.kept := by
  obtain ⟨-, -, -, hi⟩ := cancelAtStart_jobs (clearBoot (releaseCycle s))
  have hk : (cancelAtStart (clearBoot (releaseCycle s))).store = s.store.orphaned := by
    unfold cancelAtStart cancelJobs
    dsimp only
    (repeat' split) <;> rfl
  have hc : (cancelAtStart (clearBoot (releaseCycle s))).kept = s.kept := (cancelAtStart_work _).kept
  refine ⟨hk, ?_, rfl, rfl, hc⟩
  simp only [State.beforeInterrupt, pump, refill, hi, Option.toList, placeAll]
  rfl

/-- Orphaned items are the same writes. -/
theorem StoreUnit.orphaned_ops (u : StoreUnit) :
    (u.orphaned.making.toList ++ u.orphaned.waiting).map (·.op) = (u.making.toList ++ u.waiting).map (·.op) := by
  cases h : u.making <;> simp [StoreUnit.orphaned, h, StoreItem.orphaned, Function.comp_def]

/-- An orphaned item answers nobody (R183). -/
theorem StoreItem.orphaned_unanswering (item : StoreItem) : item.orphaned.after.unanswering = true := by
  unfold StoreItem.orphaned
  cases item.after <;> rfl

/-- The store and Image Acceptance after a start of measurement: writes begun go on and answer nobody, and where bank selection waits for
none of them the verification is stopped and a record that is VERIFYING rejected (R106, R182, R183). -/
theorem startOfMeasurement_writes (shortPress : Bool) (s : State) :
    (startOfMeasurement shortPress s).store =
        ⟨s.store.making.map StoreItem.orphaned, s.store.waiting.map StoreItem.orphaned ++ s.interruption⟩ ∧
      (startOfMeasurement shortPress s).image =
        (if s.gateWritesDone then ⟨none, none⟩ else
          ⟨s.image.verification.map fun v => { v with deadline := none }, none⟩) ∧
      (startOfMeasurement shortPress s).gate.selection = .awaiting shortPress s.gateWritesDone ∧
      (startOfMeasurement shortPress s).gate.scanRound = none := by
  change (interruptStep (s.beforeInterrupt shortPress)).store = _ ∧ (interruptStep (s.beforeInterrupt shortPress)).image = _ ∧
    (interruptStep (s.beforeInterrupt shortPress)).gate.selection = _ ∧
    (interruptStep (s.beforeInterrupt shortPress)).gate.scanRound = _
  obtain ⟨hs, hi, hg, hr, hk⟩ := s.beforeInterrupt_eqs shortPress
  generalize s.beforeInterrupt shortPress = t at hs hi hg hr hk
  have hd : t.gateWritesDone = s.gateWritesDone := by
    have : ∀ u : State, u.gateWritesDone = (u.begun.map (·.op)).all fun op => !op.gates := by
      intro u
      simp [State.gateWritesDone, List.all_map, Function.comp_def]
    rw [this, this]
    simp only [State.begun, hs, StoreUnit.orphaned_ops]
  have hp : t.image.progress = s.image.progress ∧ t.image.knownFields = s.image.knownFields := by
    rw [hi]
    rcases hv : s.image.verification with _ | v <;> simp [ImageUnit.progress, ImageUnit.knownFields, hv]
  have step : interruptStep t =
      if s.gateWritesDone then
        if s.kept.staged = .verifying then reject .interrupted { t with gate := { t.gate with selection := .awaiting shortPress true } }
        else stopVerification { t with gate := { t.gate with selection := .awaiting shortPress true } }
      else t := by
    simp only [interruptStep, hg, hd, hk]
  rw [step]
  have hu : ∀ u : State, u.gate.scanRound = none →
      (stopVerification u).gate.selection = u.gate.selection ∧ (stopVerification u).gate.scanRound = none := by
    intro u hu
    unfold stopVerification pump cancelJobs refill
    dsimp only
    (repeat' split) <;> simp [hu, dropCurrent]
  generalize hx : ({ t with gate := { t.gate with selection := .awaiting shortPress true } } : State) = u
  have u1 : u.store = s.store.orphaned := by rw [← hx]; exact hs
  have u2 : u.image.progress = s.image.progress ∧ u.image.knownFields = s.image.knownFields := by rw [← hx]; exact hp
  have u3 : u.gate.selection = .awaiting shortPress true := by rw [← hx]
  obtain ⟨k1, -, k3, -⟩ := stopVerification_stopped u
  obtain ⟨k5, k6⟩ := hu u (by rw [← hx]; exact hr)
  by_cases hdone : s.gateWritesDone = true
  · rw [if_pos hdone, if_pos hdone, hdone]
    by_cases hv : s.kept.staged = .verifying
    · rw [if_pos hv]
      refine ⟨?_, k1, k5.trans u3, k6⟩
      simp [reject, State.handOver, k3, u1, u2, StoreUnit.orphaned, State.interruption, State.interrupts, hdone, hv]
    · rw [if_neg hv]
      refine ⟨?_, k1, k5.trans u3, k6⟩
      simp [k3, u1, StoreUnit.orphaned, State.interruption, State.interrupts, hv]
  · rw [if_neg hdone, if_neg hdone]
    refine ⟨?_, hi, ?_, hr⟩
    · simp [hs, StoreUnit.orphaned, State.interruption, State.interrupts, hdone]
    · simpa [hdone] using hg

/-- A start of measurement ends the boot, in the event it is taken in, whatever the part sent in that event. -/
theorem startOfMeasurement_ended (shortPress : Bool) (s : State) :
    BootEnded shortPress s (startOfMeasurement shortPress s).settle := by
  have h := startOfMeasurement_work shortPress s
  have hj := startOfMeasurement_jobs shortPress (s := s)
  obtain ⟨w1, w2, w3, w4⟩ := startOfMeasurement_writes shortPress s
  generalize startOfMeasurement shortPress s = t at h hj w1 w2 w3 w4
  have hg := h.gate
  have ha : t.gate.attach = none := by rw [hg]; rfl
  have hs : t.gate.state = .measuring := by rw [hg]; rfl
  have hb : t.begun = s.store.orphaned.making.toList ++ s.store.orphaned.waiting ++ s.interruption := by
    simp [State.begun, w1, StoreUnit.orphaned]
  constructor
  · constructor
    · exact hs
    · change (t.gate.state == .measuring || t.gate.state == .faultHold) = true
      rw [hs]
      rfl
    · exact w3
    · refine ⟨ha, ?_, ?_, ?_, ?_, ?_⟩ <;> (simp only [State.settle]; rw [hg]; rfl)
    · refine ⟨?_, ?_, ?_⟩ <;> (simp only [State.settle]; rw [hg]; rfl)
    · refine ⟨?_, ?_⟩ <;> (simp only [State.settle]; rw [hg]; rfl)
    · exact w4
    · intro hu
      exact ⟨(hj hu).waiting, (hj hu).gone, (hj hu).context, (hj hu).marked⟩
    · exact w2
    · exact congrArg StoreUnit.making w1
    · exact congrArg StoreUnit.waiting w1
    · change t.begun.map (·.op) = _
      rw [hb, List.map_append, StoreUnit.orphaned_ops]
      rfl
    · change ∀ item ∈ t.begun, _
      rw [hb]
      intro item m
      rcases List.mem_append.1 m with m | m
      · have : ∃ x : StoreItem, item = x.orphaned := by
          rcases List.mem_append.1 m with m | m
          · obtain ⟨x, -, e⟩ := Option.map_eq_some_iff.1 (Option.mem_toList.1 m)
            exact ⟨x, e.symm⟩
          · obtain ⟨x, -, e⟩ := List.mem_map.1 m
            exact ⟨x, e.symm⟩
        obtain ⟨x, rfl⟩ := this
        exact x.orphaned_unanswering
      · simp only [State.interruption] at m
        split at m
        · simp only [List.mem_singleton] at m
          rw [m]
          rfl
        · simp at m
    · exact h.ism
    · refine ⟨?_, ?_, ?_, ?_, ?_, ?_, ?_⟩ <;> (simp only [State.settle]; rw [h.link]; rfl)
    · exact h.linkContext
    · simp only [State.settle]
      rw [h.vault]
      rfl
    · simp only [State.settle]
      rw [h.vault]
      simp [clearBoot, releaseCycle, VaultUnit.releaseRequest]
    · intro i
      simp only [State.settle, State.suspended]
      rw [h.keys]
      simp [clearBoot]
      by_cases hi : i < 24 <;> simp [hi]
    · simp only [State.settle]
      rw [h.keys]
      rfl
    · refine List.eq_nil_iff_forall_not_mem.2 fun op m => ?_
      exact absurd (h.engine op m) (by simp [clearBoot])
    · intro i mark hm
      simp only [State.settle] at hm
      rw [h.reactions] at hm
      simp [clearBoot] at hm
      by_cases hi : i < 8 <;> simp [hi] at hm
      exact hm
    · simp only [State.settle]
      rw [h.biu]
      rfl
    · simp only [State.settle]
      rw [h.biu]
      exact ⟨rfl, rfl, rfl⟩
    · simp only [State.settle]
      rw [h.biu]
      rfl
    · simp only [State.settle]
      rw [h.port]
      simp only [clearBoot, FlashPort.endSoc]
      split <;> rfl
    · exact h.kept
    · simp only [State.settle]
      rw [h.vault]
      rfl
    · simp only [State.settle]
      rw [h.vault]
      rfl
    · exact h.uptime
    · exact h.powered
    · exact h.pending
  · simp only [State.settle]
    rw [h.link]
    rfl
  · simp only [State.settle]
    rw [h.reactions]
    rfl
  · simp only [State.settle]
    rw [h.biu]
    rfl
  · simp only [State.settle]
    rw [h.vault]
    rfl

/-- A boot that ends from a state `u` ends from every state `s` that differs from it only in what a start of measurement clears, or in the vault's
hold by the request that it drops: the end of an event that first answers, raises and fires. -/
theorem BootStopped.from_same {shortPress : Bool} {s u t : State} (h : BootStopped shortPress u t)
    (gate : u.gate = s.gate) (reader : u.reader = s.reader) (image : u.image = s.image) (store : u.store = s.store) (kept : u.kept = s.kept)
    (mask : u.link.mask = s.link.mask) (overruns : u.link.overruns = s.link.overruns)
    (holder : u.vault.holder = s.vault.holder ∨ u.vault.holder = if s.vault.holder = some .request then none else s.vault.holder)
    (penalty : u.vault.penalty = s.vault.penalty) (decay : u.vault.decay = s.vault.decay) (button : u.biu.button = s.biu.button)
    (uptime : u.uptime = s.uptime) (powered : u.powered = s.powered) (pending : u.pending = s.pending) :
    BootStopped shortPress s t := by
  have hw : u.gateWritesDone = s.gateWritesDone := by simp [State.gateWritesDone, State.begun, store]
  have hi : u.interruption = s.interruption := by simp [State.interruption, State.interrupts, hw, image, kept]
  refine
    { h with
      selection := by rw [h.selection, hw]
      counts := gate ▸ h.counts
      jobs := fun q => ?_
      image := by rw [h.image, hw, image]
      making := by rw [h.making, store]
      waiting := by rw [h.waiting, store, hi]
      writes := by rw [h.writes, hi]; simp [State.begun, store]
      link := by simpa only [mask, overruns] using h.link
      holder := by
        rw [h.holder]
        rcases holder with e | e
        · rw [e]
        · rw [e]; split <;> simp_all
      button := by rw [h.button, button]
      kept := by rw [h.kept, kept]
      penalty := by rw [h.penalty, penalty]
      decay := by rw [h.decay, decay]
      uptime := by rw [h.uptime, uptime]
      powered := by rw [h.powered, powered]
      pending := by rw [h.pending, pending] }
  have j := h.jobs (by rw [gate]; exact q)
  exact ⟨j.waiting, by simpa [reader] using j.gone, by simpa [reader] using j.context, by simpa [reader] using j.marked⟩

/-! ## A condition event (R160) -/

/-- An event that matches no entry changes nothing. -/
theorem fire_none {condition : Condition} {count : Nat} {s : State} (h : s.matching condition count = []) :
    fire condition count s = s := by
  simp only [fire, h]

/-- An event that matches entries fires them, raises REACTION and hands their actions on. -/
theorem fire_some {condition : Condition} {count : Nat} {s : State} (h : s.matching condition count ≠ []) :
    fire condition count s = handActions (s.actionsOf (s.matching condition count))
      ((markFired (s.matching condition count) s).raise .reaction) := by
  unfold fire
  split
  · exact absurd ‹_› h
  · rfl

/-- Actions that do not hold the SoC: the pattern shown, the slots suspended, the owner reset that waits, and the write of RECOVERY_NEXT. -/
theorem handActions_released {actions : List Action} (h : .holdSoc ∉ actions) (s : State) :
    handActions actions s =
      let u := suspendSlots (suspendSet actions) (showPattern actions s)
      let v := if actions.contains .ownerReset then awaitReset u else u
      if actions.contains .recoveryNext then v.handOver (.recoveryNext true) (.reactionWrite false) else v := by
  have hc : actions.contains .holdSoc = false := by simpa using h
  simp only [handActions, gateActions, hc, Bool.false_and, Bool.false_eq_true, if_false]

/-! ## What a condition event leaves (R160, R161) -/

/-- `t` is `s` after a condition event that ends no boot: what it leaves, the flags it adds, and the fire counts it raises. -/
structure Fired (condition : Condition) (count : Nat) (s t : State) : Prop where
  kept : t.kept = s.kept
  link : t.link = { s.link with flags := s.link.flags ||| s.reactionFlag condition count }
  counts : t.reactions.counts = s.raisedCounts condition count
  ism : t.ism = s.ism
  engine : t.engine = s.engine
  digest : t.digest = s.digest
  reader : t.reader = s.reader
  port : t.port = s.port
  gate : t.gate = s.gate
  image : t.image = s.image
  holder : t.vault.holder = s.vault.holder
  penalty : t.vault.penalty = s.vault.penalty
  decay : t.vault.decay = s.vault.decay
  pins : t.pins = s.pins
  uptime : t.uptime = s.uptime
  powered : t.powered = s.powered
  draws : t.draws = s.draws
  pending : t.pending = s.pending
  making : t.store.making = s.store.making
  waiting : t.store.waiting = s.store.waiting ++
    if .recoveryNext ∈ s.actionsOf (s.matching condition count) then [⟨.recoveryNext true, .reactionWrite false⟩] else []

/-- The actions of an event beside a HOLD_SOC that is carried out. -/
def actionsBesideHold (actions : List Action) (s : State) : State :=
  let u := suspendSlots (suspendSet actions) (showPattern actions s)
  let v := if actions.contains .ownerReset then awaitReset u else u
  if actions.contains .recoveryNext then v.handOver (.recoveryNext true) (.reactionWrite false) else v

theorem showPattern_eq (actions : List Action) (s : State) :
    showPattern actions s = { s with biu := (showPattern actions s).biu } := by
  unfold showPattern
  split <;> rfl

theorem awaitReset_eq (s : State) :
    awaitReset s = { s with vault := { s.vault with waiting := (awaitReset s).vault.waiting } } := by
  unfold awaitReset
  split <;> rfl

/-- Without HOLD_SOC, and where the SoC is held already, an event hands on its other actions (R83, R161). -/
theorem handActions_besideHold {actions : List Action} {s : State} (h : .holdSoc ∉ actions ∨ s.held = true) :
    handActions actions s = actionsBesideHold actions s := by
  rcases h with h | h
  · exact handActions_released h s
  · have hu : ∀ u : State, u.gate = s.gate → u.socRuns = false := by
      intro u e
      have : u.held = s.held := by simp only [State.held, e]
      simp [State.socRuns, this, h]
    have hg : (if actions.contains .ownerReset then
        awaitReset (suspendSlots (suspendSet actions) (showPattern actions s))
        else suspendSlots (suspendSet actions) (showPattern actions s)).gate = s.gate := by
      rw [showPattern_eq]
      split
      · rw [awaitReset_eq]
        rfl
      · rfl
    simp only [handActions, gateActions, actionsBesideHold, hu _ hg, Bool.and_false, holdSoc, Bool.false_eq_true, if_false,
      ite_self]

/-- A condition event whose actions end no boot (R160, R161). -/
theorem fire_fired {condition : Condition} {count : Nat} {s : State}
    (h : .holdSoc ∉ s.actionsOf (s.matching condition count) ∨ s.held = true) :
    Fired condition count s (fire condition count s) := by
  by_cases hm : s.matching condition count = []
  · rw [fire_none hm]
    exact ⟨rfl, by simp [State.reactionFlag, hm], by simp [State.raisedCounts, hm, Vector.ext_iff], rfl, rfl, rfl, rfl, rfl, rfl, rfl,
      rfl, rfl, rfl, rfl, rfl, rfl, rfl, rfl, rfl, by simp [hm, State.actionsOf]⟩
  · rw [fire_some hm, handActions_besideHold (by exact h)]
    unfold actionsBesideHold
    dsimp only
    rw [showPattern_eq]
    have hw : ∀ (b : Bool) (u : State), (if b then awaitReset u else u) =
        { u with vault := { u.vault with waiting := (if b then awaitReset u else u).vault.waiting } } := by
      intro b u
      cases b
      · rfl
      · exact awaitReset_eq u
    rw [hw]
    by_cases hn : .recoveryNext ∈ s.actionsOf (s.matching condition count)
    · rw [if_pos (by simpa using hn)]
      exact ⟨rfl, by simp [State.reactionFlag, hm, State.handOver, suspendSlots, State.raise, markFired], rfl, rfl, rfl, rfl, rfl, rfl,
        rfl, rfl, rfl, rfl, rfl, rfl, rfl, rfl, rfl, rfl, rfl, by rw [if_pos hn]; rfl⟩
    · rw [if_neg (by simpa using hn)]
      exact ⟨rfl, by simp [State.reactionFlag, hm, suspendSlots, State.raise, markFired], rfl, rfl, rfl, rfl, rfl, rfl,
        rfl, rfl, rfl, rfl, rfl, rfl, rfl, rfl, rfl, rfl, rfl, by rw [if_neg hn]; simp [suspendSlots, State.raise, markFired]⟩

end Sys2Proof.Machine
end

