-- ==== Sys2Proof/Laws/Records.lean ====
section
/-! SUPPORT. The records under a write or update: what it needs of them, one lemma for each, and what it puts into them (R182, log entry 46). -/

namespace Sys2Proof.Machine

/-! ## Places (log entry 53) -/

@[simp] theorem Records.slotPlace_index (r : Records) (i : Nat) : (r.slotPlace i).index = i := rfl
@[simp] theorem Records.credPlace_index (r : Records) (i : Nat) : (r.credPlace i).index = i := rfl

/-- A slot in the life that it has is the slot as it stands. -/
@[simp] theorem Records.slotAt_slotPlace (r : Records) (i : Nat) : r.slotAt (r.slotPlace i) = r.slot i := by
  simp [Records.slotAt]

/-- A record in the life that it has is the record as it stands. -/
@[simp] theorem Records.credAt_credPlace (r : Records) (i : Nat) : r.credAt (r.credPlace i) = r.cred i := by
  simp [Records.credAt]

/-- What a place names stands in its slot, whose life it has. -/
theorem Records.slotAt_some {r : Records} {p : Place} {k : KeySlot} (h : r.slotAt p = some k) :
    r.slotPlace p.index = p ∧ r.slot p.index = some k := by
  unfold Records.slotAt at h
  split at h
  · exact ⟨‹_›, h⟩
  · cases h

/-- What a place names stands in its record, whose life it has. -/
theorem Records.credAt_some {r : Records} {p : Place} {c : Credential} (h : r.credAt p = some c) :
    r.credPlace p.index = p ∧ r.cred p.index = some c := by
  unfold Records.credAt at h
  split at h
  · exact ⟨‹_›, h⟩
  · cases h

theorem Records.slot_lt {r : Records} {i : Nat} {k : KeySlot} (h : r.slot i = some k) : i < 24 := by
  by_cases hi : i < 24
  · exact hi
  · simp [Records.slot, hi] at h

theorem Records.cred_lt {r : Records} {i : Nat} {c : Credential} (h : r.cred i = some c) : i < 16 := by
  by_cases hi : i < 16
  · exact hi
  · simp [Records.cred, hi] at h

/-! ## Slots and records under a change -/

/-- A change of a slot changes that slot alone, and no life. -/
theorem Records.updateSlot_some {r : Records} {p : Place} {k : KeySlot} (h : r.slotAt p = some k) (f : KeySlot → KeySlot) :
    (r.updateSlot p f).slot p.index = some (f k) ∧ (∀ j, j ≠ p.index → (r.updateSlot p f).slot j = r.slot j) ∧
      r.updateSlot p f = { r with slots := r.slots.setIfInBounds p.index (some (f k)) } := by
  have hi := Records.slot_lt (Records.slotAt_some h).2
  have e : r.updateSlot p f = r.withSlot p.index (some (f k)) := by simp [Records.updateSlot, h]
  rw [e]
  refine ⟨by simp [Records.withSlot, Records.slot, hi], fun j hj => ?_, rfl⟩
  simp [Records.withSlot, Records.slot, hj.symm]

/-- A slot that is emptied is EMPTY alone, and its life ends (R22). -/
theorem Records.emptySlot_some {r : Records} {p : Place} {k : KeySlot} (h : r.slotAt p = some k) :
    (r.emptySlot p).slot p.index = none ∧ (∀ j, j ≠ p.index → (r.emptySlot p).slot j = r.slot j) ∧
      (r.emptySlot p).slotAt p = none ∧
      r.emptySlot p = { r with
        slots := r.slots.setIfInBounds p.index none, slotLives := r.slotLives.setIfInBounds p.index (p.life + 1) } := by
  have hi := Records.slot_lt (Records.slotAt_some h).2
  have e : r.emptySlot p =
      { r.withSlot p.index none with slotLives := r.slotLives.setIfInBounds p.index (p.life + 1) } := by
    simp [Records.emptySlot, h]
  rw [e]
  refine ⟨by simp [Records.withSlot, Records.slot, hi], fun j hj => ?_, ?_, rfl⟩
  · simp [Records.withSlot, Records.slot, hj.symm]
  · exact if_neg fun same => by simpa [Records.slotPlace, hi] using congrArg Place.life same

/-- A change of a credential changes that record alone, and no life. -/
theorem Records.updateCred_some {r : Records} {p : Place} {c : Credential} (h : r.credAt p = some c)
    (f : Credential → Credential) :
    (r.updateCred p f).cred p.index = some (f c) ∧ (∀ j, j ≠ p.index → (r.updateCred p f).cred j = r.cred j) ∧
      r.updateCred p f = { r with creds := r.creds.setIfInBounds p.index (some (f c)) } := by
  have hi := Records.cred_lt (Records.credAt_some h).2
  have e : r.updateCred p f = r.withCred p.index (some (f c)) := by simp [Records.updateCred, h]
  rw [e]
  refine ⟨by simp [Records.withCred, Records.cred, hi], fun j hj => ?_, rfl⟩
  simp [Records.withCred, Records.cred, hj.symm]

/-- A credential that is removed is not present, and its life ends (R142). -/
theorem Records.removeCred_some {r : Records} {p : Place} {c : Credential} (h : r.credAt p = some c) :
    (r.removeCred p).cred p.index = none ∧ (∀ j, j ≠ p.index → (r.removeCred p).cred j = r.cred j) ∧
      (r.removeCred p).credAt p = none ∧
      r.removeCred p = { r with
        creds := r.creds.setIfInBounds p.index none, credLives := r.credLives.setIfInBounds p.index (p.life + 1) } := by
  have hi := Records.cred_lt (Records.credAt_some h).2
  have e : r.removeCred p =
      { r.withCred p.index none with credLives := r.credLives.setIfInBounds p.index (p.life + 1) } := by
    simp [Records.removeCred, h]
  rw [e]
  refine ⟨by simp [Records.withCred, Records.cred, hi], fun j hj => ?_, ?_, rfl⟩
  · simp [Records.withCred, Records.cred, hj.symm]
  · exact if_neg fun same => by simpa [Records.credPlace, hi] using congrArg Place.life same

/-! ## Whether a write is made -/

/-- A write whose checks hold is made. -/
theorem Records.apply_ok {r : Records} {op : StoreOp} (h : r.recheck op = .ok ()) : r.apply op = r.written op := by
  simp [Records.apply, h]

/-- A write one of whose checks does not hold leaves the records. -/
theorem Records.apply_error {r : Records} {op : StoreOp} {status : Status} (h : r.recheck op = .error status) :
    r.apply op = r := by
  simp [Records.apply, h]

/-! ## Writes that are always made -/

@[simp] theorem Records.recheck_slotErase (r : Records) (i : Place) : r.recheck (.slotErase i) = .ok () := rfl
@[simp] theorem Records.recheck_recoveryNext (r : Records) (v : Bool) : r.recheck (.recoveryNext v) = .ok () := rfl
@[simp] theorem Records.recheck_bootParam (r : Records) (p : BootParam) (v : Nat) : r.recheck (.bootParam p v) = .ok () := rfl
@[simp] theorem Records.recheck_stagedPut (r : Records) (x : Staged) : r.recheck (.stagedPut x) = .ok () := rfl
@[simp] theorem Records.recheck_arm (r : Records) (n : Nat) : r.recheck (.arm n) = .ok () := rfl
@[simp] theorem Records.recheck_disarm (r : Records) : r.recheck (.disarm) = .ok () := rfl
@[simp] theorem Records.recheck_trialTry (r : Records) : r.recheck (.trialTry) = .ok () := rfl
@[simp] theorem Records.recheck_confirmBoot (r : Records) : r.recheck (.confirmBoot) = .ok () := rfl
@[simp] theorem Records.recheck_confirmLine (r : Records) (n : Nat) : r.recheck (.confirmLine n) = .ok () := rfl
@[simp] theorem Records.recheck_vaultParam (r : Records) (p : VaultParam) (v : Nat) : r.recheck (.vaultParam p v) = .ok () := rfl
@[simp] theorem Records.recheck_ownerReset (r : Records) : r.recheck (.ownerReset) = .ok () := rfl
@[simp] theorem Records.recheck_patternPut (r : Records) (n : Nat) (p : Pattern) : r.recheck (.patternPut n p) = .ok () := rfl
@[simp] theorem Records.recheck_reactionPut (r : Records) (i : Nat) (e : ReactionEntry) : r.recheck (.reactionPut i e) = .ok () := rfl
@[simp] theorem Records.recheck_layoutPut (r : Records) (l : Layout) : r.recheck (.layoutPut l) = .ok () := rfl

@[simp] theorem Records.apply_slotErase (r : Records) (i : Place) : r.apply (.slotErase i) = r.written (.slotErase i) := rfl
@[simp] theorem Records.apply_recoveryNext (r : Records) (v : Bool) : r.apply (.recoveryNext v) = r.written (.recoveryNext v) := rfl
@[simp] theorem Records.apply_bootParam (r : Records) (p : BootParam) (v : Nat) : r.apply (.bootParam p v) = r.written (.bootParam p v) := rfl
@[simp] theorem Records.apply_stagedPut (r : Records) (x : Staged) : r.apply (.stagedPut x) = r.written (.stagedPut x) := rfl
@[simp] theorem Records.apply_arm (r : Records) (n : Nat) : r.apply (.arm n) = r.written (.arm n) := rfl
@[simp] theorem Records.apply_disarm (r : Records) : r.apply (.disarm) = r.written (.disarm) := rfl
@[simp] theorem Records.apply_trialTry (r : Records) : r.apply (.trialTry) = r.written (.trialTry) := rfl
@[simp] theorem Records.apply_confirmBoot (r : Records) : r.apply (.confirmBoot) = r.written (.confirmBoot) := rfl
@[simp] theorem Records.apply_confirmLine (r : Records) (n : Nat) : r.apply (.confirmLine n) = r.written (.confirmLine n) := rfl
@[simp] theorem Records.apply_vaultParam (r : Records) (p : VaultParam) (v : Nat) : r.apply (.vaultParam p v) = r.written (.vaultParam p v) := rfl
@[simp] theorem Records.apply_ownerReset (r : Records) : r.apply (.ownerReset) = r.written (.ownerReset) := rfl
@[simp] theorem Records.apply_patternPut (r : Records) (n : Nat) (p : Pattern) : r.apply (.patternPut n p) = r.written (.patternPut n p) := rfl
@[simp] theorem Records.apply_reactionPut (r : Records) (i : Nat) (e : ReactionEntry) : r.apply (.reactionPut i e) = r.written (.reactionPut i e) := rfl
@[simp] theorem Records.apply_layoutPut (r : Records) (l : Layout) : r.apply (.layoutPut l) = r.written (.layoutPut l) := rfl

/-! ## Writes with checks -/

@[simp] theorem Records.recheck_slotPut (r : Records) (i : Nat) (k : KeySlot) :
    r.recheck (.slotPut i k) = r.recheckSlot (.slotPut i k) := rfl
@[simp] theorem Records.recheck_slotAppend (r : Records) (i : Place) (n : Nat) (b : Bytes) :
    r.recheck (.slotAppend i n b) = r.recheckSlot (.slotAppend i n b) := rfl
@[simp] theorem Records.recheck_slotCount (r : Records) (i : Place) :
    r.recheck (.slotCount i) = r.recheckSlot (.slotCount i) := rfl
@[simp] theorem Records.recheck_slotRestrict (r : Records) (i : Place) (u a : Byte) (l : Option Nat) (b : Option Binding) :
    r.recheck (.slotRestrict i u a l b) = r.recheckSlot (.slotRestrict i u a l b) := rfl
@[simp] theorem Records.recheck_slotRetire (r : Records) (i : Place) :
    r.recheck (.slotRetire i) = r.recheckSlot (.slotRetire i) := rfl
@[simp] theorem Records.recheck_requesterPut (r : Records) (i : Nat) (q : Requester) :
    r.recheck (.requesterPut i q) = r.checkRequester i q := rfl
@[simp] theorem Records.recheck_vaultClaim (r : Records) (tag : BitVec 32) :
    r.recheck (.vaultClaim tag) = check (!r.vault.claimed) .wrongState := rfl
@[simp] theorem Records.recheck_credPut (r : Records) (c : Credential) :
    r.recheck (.credPut c) = (do
      let _ ← r.credIndex c.label c.isOwner
      check (r.mayHold c.isOwner) .wrongState) := rfl
@[simp] theorem Records.recheck_credCharge (r : Records) (i : Place) (second : Nat) :
    r.recheck (.credCharge i second) = check (r.credAt i).isSome .badArgument := rfl
@[simp] theorem Records.recheck_credMatch (r : Records) (i : Place) :
    r.recheck (.credMatch i) = check (r.credAt i).isSome .badArgument := rfl
@[simp] theorem Records.recheck_credValue (r : Records) (i : Place) (v : Bytes) (clear restart : Bool) :
    r.recheck (.credValue i v clear restart) = check (r.credAt i).isSome .badArgument := rfl
@[simp] theorem Records.recheck_credRemove (r : Records) (i : Place) :
    r.recheck (.credRemove i) = check (r.credAt i).isSome .badArgument := rfl
@[simp] theorem Records.recheck_credDecay (r : Records) (i : Place) (n : Nat) :
    r.recheck (.credDecay i n) = check (r.credAt i).isSome .badArgument := rfl
@[simp] theorem Records.recheck_goldenPut (r : Records) (epoch build : Nat) (regions : List Region) :
    r.recheck (.goldenPut epoch build regions) = r.checkGolden epoch regions := rfl
@[simp] theorem Records.recheck_lock (r : Records) : r.recheck .lock = check r.lockable .wrongState := rfl

/-- A counted use needs an ACTIVE slot (R5, R6). -/
theorem Records.recheckSlot_count {r : Records} {p : Place} {k : KeySlot} (hs : r.slotAt p = some k)
    (ha : k.state = .active) : r.recheckSlot (.slotCount p) = .ok () := by
  simp [Records.recheckSlot, present, hs, checkActive, check, ha, bind, Except.bind]

/-- A created slot needs an EMPTY slot and a free label, and for class OWNER a CLAIMED vault (R17). -/
theorem Records.recheckSlot_put {r : Records} {i : Nat} {k : KeySlot} (hs : r.slot i = none)
    (hl : r.slotLabelFree k.label = true) (hc : k.slotClass = .owner → r.vault.claimed = true) :
    r.recheckSlot (.slotPut i k) = .ok () := by
  have hm : r.mayHold (k.slotClass == .owner) = true := by
    by_cases h : k.slotClass = .owner
    · simp [Records.mayHold, hc h]
    · simp [Records.mayHold, h]
  simp [Records.recheckSlot, hs, hl, hm, check, bind, Except.bind]

/-! ## Lives under a write (log entry 53) -/

/-- The lives of one record beside another: none has fallen, and each rises where what stood there stands there no more (log entry 53). -/
structure Records.LivesKept (r q : Records) : Prop where
  slots : ∀ i, (r.slotPlace i).life ≤ (q.slotPlace i).life
  emptied : ∀ i, r.slot i ≠ none → q.slot i = none → (r.slotPlace i).life < (q.slotPlace i).life
  creds : ∀ i, (r.credPlace i).life ≤ (q.credPlace i).life
  removed : ∀ i, r.cred i ≠ none → q.cred i = none → (r.credPlace i).life < (q.credPlace i).life

/-- A change that leaves both lists and makes nothing EMPTY keeps the lives. -/
theorem Records.LivesKept.of_filled {r q : Records} (hs : q.slotLives = r.slotLives) (hc : q.credLives = r.credLives)
    (slots : ∀ i, r.slot i ≠ none → q.slot i ≠ none) (creds : ∀ i, r.cred i ≠ none → q.cred i ≠ none) : r.LivesKept q :=
  ⟨fun i => by simp [Records.slotPlace, hs], fun i h e => absurd e (slots i h),
    fun i => by simp [Records.credPlace, hc], fun i h e => absurd e (creds i h)⟩

theorem lifeAfter_le {α : Type} (a b : Option α) (n : Nat) : n ≤ lifeAfter a b n := by
  unfold lifeAfter
  split <;> omega

theorem lifeAfter_lt {α : Type} {a : Option α} (h : a ≠ none) (n : Nat) : n < lifeAfter a none n := by
  simp [lifeAfter, Option.isSome_iff_ne_none.2 h]

theorem Records.updateSlot_lives (r : Records) (p : Place) (f : KeySlot → KeySlot) : r.LivesKept (r.updateSlot p f) := by
  cases h : r.slotAt p with
  | none => simpa [Records.updateSlot, h] using Records.LivesKept.of_filled rfl rfl (fun _ => id) fun _ => id
  | some k =>
    obtain ⟨here, others, e⟩ := Records.updateSlot_some h f
    refine .of_filled (by rw [e]) (by rw [e]) (fun i hi => ?_) fun i hi => by rw [e]; exact hi
    by_cases same : i = p.index
    · rw [same, here]; exact Option.some_ne_none _
    · rwa [others i same]

theorem Records.updateCred_lives (r : Records) (p : Place) (f : Credential → Credential) : r.LivesKept (r.updateCred p f) := by
  cases h : r.credAt p with
  | none => simpa [Records.updateCred, h] using Records.LivesKept.of_filled rfl rfl (fun _ => id) fun _ => id
  | some c =>
    obtain ⟨here, others, e⟩ := Records.updateCred_some h f
    refine .of_filled (by rw [e]) (by rw [e]) (fun i hi => by rw [e]; exact hi) fun i hi => ?_
    by_cases same : i = p.index
    · rw [same, here]; exact Option.some_ne_none _
    · rwa [others i same]

theorem Records.withSlot_lives (r : Records) (i : Nat) (k : KeySlot) : r.LivesKept (r.withSlot i (some k)) := by
  refine .of_filled rfl rfl (fun j hj => ?_) fun _ => id
  simp only [Records.slot, Records.withSlot, Vector.getElem?_setIfInBounds] at hj ⊢
  split
  · split <;> simp_all
  · exact hj

theorem Records.withCred_lives (r : Records) (i : Nat) (c : Credential) : r.LivesKept (r.withCred i (some c)) := by
  refine .of_filled rfl rfl (fun _ => id) fun j hj => ?_
  simp only [Records.cred, Records.withCred, Vector.getElem?_setIfInBounds] at hj ⊢
  split
  · split <;> simp_all
  · exact hj

theorem Records.emptySlot_lives (r : Records) (p : Place) : r.LivesKept (r.emptySlot p) := by
  cases h : r.slotAt p with
  | none => simpa [Records.emptySlot, h] using Records.LivesKept.of_filled rfl rfl (fun _ => id) fun _ => id
  | some k =>
    obtain ⟨here, others, ended, e⟩ := Records.emptySlot_some h
    have hi := Records.slot_lt (Records.slotAt_some h).2
    have life : ∀ i, ((r.emptySlot p).slotPlace i).life = if i = p.index then (r.slotPlace i).life + 1 else (r.slotPlace i).life := by
      intro i
      rw [e]
      by_cases same : i = p.index
      · subst same
        have := congrArg Place.life (Records.slotAt_some h).1
        simp [Records.slotPlace, hi] at this ⊢
        exact this.symm
      · simp [Records.slotPlace, same, Ne.symm same]
    refine ⟨fun i => ?_, fun i hi e => ?_, fun i => by rw [e]; exact Nat.le_refl _, fun i hi c => ?_⟩
    · rw [life]; split <;> omega
    · rw [life]
      split
      · omega
      · rw [others i ‹_›] at e; exact absurd e hi
    · rw [e] at c; exact absurd c hi

theorem Records.removeCred_lives (r : Records) (p : Place) : r.LivesKept (r.removeCred p) := by
  cases h : r.credAt p with
  | none => simpa [Records.removeCred, h] using Records.LivesKept.of_filled rfl rfl (fun _ => id) fun _ => id
  | some c =>
    obtain ⟨here, others, ended, e⟩ := Records.removeCred_some h
    have hi := Records.cred_lt (Records.credAt_some h).2
    have life : ∀ i, ((r.removeCred p).credPlace i).life = if i = p.index then (r.credPlace i).life + 1 else (r.credPlace i).life := by
      intro i
      rw [e]
      by_cases same : i = p.index
      · subst same
        have := congrArg Place.life (Records.credAt_some h).1
        simp [Records.credPlace, hi] at this ⊢
        exact this.symm
      · simp [Records.credPlace, same, Ne.symm same]
    refine ⟨fun i => by rw [e]; exact Nat.le_refl _, fun i hi c => ?_, fun i => ?_, fun i hi e => ?_⟩
    · rw [e] at c; exact absurd c hi
    · rw [life]; split <;> omega
    · rw [life]
      split
      · omega
      · rw [others i ‹_›] at e; exact absurd e hi

theorem Records.ownerReset_lives (r : Records) : r.LivesKept r.ownerReset := by
  have hs : ∀ i, i < 24 → (r.ownerReset.slotPlace i).life =
      lifeAfter (r.slot i) (r.ownerReset.slot i) (r.slotPlace i).life := by
    intro i hi
    simp [Records.ownerReset, Records.slotPlace, Records.slot, hi]
  have hc : ∀ i, i < 16 → (r.ownerReset.credPlace i).life =
      lifeAfter (r.cred i) (r.ownerReset.cred i) (r.credPlace i).life := by
    intro i hi
    simp [Records.ownerReset, Records.credPlace, Records.cred, hi]
  refine ⟨fun i => ?_, fun i h e => ?_, fun i => ?_, fun i h e => ?_⟩
  · by_cases hi : i < 24
    · rw [hs i hi]; exact lifeAfter_le _ _ _
    · simp [Records.slotPlace, hi]
  · obtain ⟨k, hk⟩ := Option.ne_none_iff_exists'.1 h
    rw [hs i (Records.slot_lt hk), e]; exact lifeAfter_lt h _
  · by_cases hi : i < 16
    · rw [hc i hi]; exact lifeAfter_le _ _ _
    · simp [Records.credPlace, hi]
  · obtain ⟨k, hk⟩ := Option.ne_none_iff_exists'.1 h
    rw [hc i (Records.cred_lt hk), e]; exact lifeAfter_lt h _

/-- No write lowers a life, and one that makes a slot EMPTY or a record not present raises its life. -/
theorem Records.apply_lives (r : Records) (op : StoreOp) : r.LivesKept (r.apply op) := by
  have same : ∀ q : Records, q.slots = r.slots → q.slotLives = r.slotLives → q.creds = r.creds → q.credLives = r.credLives →
      r.LivesKept q := fun q a b c d =>
    .of_filled b d (fun i h => by rwa [Records.slot, a]) fun i h => by rwa [Records.cred, c]
  unfold Records.apply
  split
  · cases op <;> simp only [Records.written]
    case slotPut => exact r.withSlot_lives _ _
    case slotErase => exact r.emptySlot_lives _
    case slotAppend => exact r.updateSlot_lives _ _
    case slotCount => exact r.updateSlot_lives _ _
    case slotRestrict => exact r.updateSlot_lives _ _
    case slotRetire => exact r.updateSlot_lives _ _
    case credPut =>
      split
      · exact r.withCred_lives _ _
      · exact same r rfl rfl rfl rfl
    case credCharge => exact r.updateCred_lives _ _
    case credMatch => exact r.updateCred_lives _ _
    case credValue => exact r.updateCred_lives _ _
    case credDecay => exact r.updateCred_lives _ _
    case credRemove => exact r.removeCred_lives _
    case ownerReset => exact r.ownerReset_lives
    case arm => unfold Records.arm; split <;> exact same _ rfl rfl rfl rfl
    case disarm => unfold Records.disarm; split <;> exact same _ rfl rfl rfl rfl
    case trialTry => unfold Records.trialTry; split <;> exact same _ rfl rfl rfl rfl
    case confirmBoot =>
      unfold Records.confirmBoot
      split
      · refine same _ ?_ ?_ ?_ ?_ <;> cases r.selector.active <;> rfl
      · exact same _ rfl rfl rfl rfl
    case confirmLine => unfold Records.confirmLine; split <;> exact same _ rfl rfl rfl rfl
    all_goals exact same _ rfl rfl rfl rfl
  · exact same r rfl rfl rfl rfl

end Sys2Proof.Machine
end

