-- ==== Sys2Proof/Laws/Measured.lean ====
section
/-! SUPPORT. The law of chains and log (R32): what each change of the chains and the log does to it. -/

namespace Sys2Proof.Machine

theorem Ism.chain_append (m : Ism) (c d : Nat) (kind : LogKind) (e : Bytes) (source : Option Nat) (tag : Bytes) (h : d < 8) :
    (m.append c kind e source tag).chain d = if d = c then extendChain (m.chain c) e else m.chain d := by
  unfold Ism.append Ism.chain
  by_cases hcd : d = c
  · subst hcd; simp [h]
  · have : c ≠ d := fun k => hcd k.symm
    simp [hcd, this]

theorem Ism.replay_append (m : Ism) (c d : Nat) (kind : LogKind) (e : Bytes) (source : Option Nat) (tag : Bytes) :
    (m.append c kind e source tag).replay d = if d = c then extendChain (m.replay c) e else m.replay d := by
  unfold Ism.append Ism.replay
  by_cases hcd : d = c
  · subst hcd; simp [List.filter_append, List.foldl_append]
  · have : c ≠ d := fun k => hcd k.symm
    simp [List.filter_append, hcd, this]

/-- An append adds one entry of its kind (R35). -/
theorem Ism.entriesOf_append (kinds : List LogKind) (m : Ism) (c : Nat) (kind : LogKind) (e : Bytes) (source : Option Nat) (tag : Bytes) :
    (m.append c kind e source tag).entriesOf kinds = m.entriesOf kinds + if kinds.contains kind then 1 else 0 := by
  simp only [Ism.entriesOf, Ism.append, List.countP_append, List.countP_singleton]

/-- An append with its extension keeps the law (R35), where a request finds the log below its limit and a stage mark comes with a stage
raised (R36, R30). -/
theorem Ism.Lawful.append {m : Ism} (h : m.Lawful) (c : Nat) (kind : LogKind) (e : Bytes) (source : Option Nat) (tag : Bytes)
    (hr : kind = .request → m.log.length < 36) (hs : kind = .stageMark → m.entriesOf [.stageMark] < m.stage.number) :
    (m.append c kind e source tag).Lawful where
  chains d hd := by
    rw [Ism.chain_append _ _ _ _ _ _ _ hd, Ism.replay_append]
    by_cases hdc : d = c
    · subst hdc; simp [h.chains d hd]
    · simp [hdc, h.chains d hd]
  sequences i x hx := by
    by_cases hi : i < m.log.length
    · exact h.sequences i x (by simpa [Ism.append, List.getElem?_append, hi] using hx)
    · by_cases heq : i = m.log.length
      · subst heq; simp [Ism.append] at hx; rw [← hx]
      · have : m.log.length + 1 ≤ i := by omega
        have hlen : (m.append c kind e source tag).log.length = m.log.length + 1 := by simp [Ism.append]
        rw [List.getElem?_eq_none (by omega)] at hx
        cases hx
  requests i x hx hk := by
    by_cases hi : i < m.log.length
    · exact h.requests i x (by simpa [Ism.append, List.getElem?_append, hi] using hx) hk
    · by_cases heq : i = m.log.length
      · subst heq
        simp [Ism.append] at hx
        exact hr (by rw [← hk, ← hx])
      · have : m.log.length + 1 ≤ i := by omega
        have hlen : (m.append c kind e source tag).log.length = m.log.length + 1 := by simp [Ism.append]
        rw [List.getElem?_eq_none (by omega)] at hx
        cases hx
  stageMarks := by
    rw [Ism.entriesOf_append]
    change _ ≤ m.stage.number
    have := h.stageMarks
    by_cases hk : kind = .stageMark
    · have := hs hk
      simp only [hk, List.contains_cons, beq_self_eq_true, Bool.true_or, if_true]
      omega
    · have : List.contains [LogKind.stageMark] kind = false := by cases kind <;> first | rfl | exact absurd rfl hk
      simp only [this, Bool.false_eq_true, if_false]
      omega

/-- The stage mark of an advance that raises the stage keeps the law (R30). -/
theorem Ism.Lawful.advance {m : Ism} (h : m.Lawful) (target : Stage) (ht : m.stage.number < target.number) :
    (m.advance target).Lawful :=
  Ism.Lawful.append (m := { m with stage := target })
    ⟨h.chains, h.sequences, h.requests, Nat.le_trans h.stageMarks (Nat.le_of_lt ht)⟩ _ _ _ _ _ (fun k => by cases k)
    fun _ => Nat.lt_of_le_of_lt h.stageMarks ht

/-- Zeroed chains with an empty log keep the law (R42). -/
theorem Ism.Lawful.start : ismAtStart.Lawful where
  chains c hc := by
    simp [ismAtStart, Ism.chain, Ism.replay, hc]
  sequences i x hx := by simp [ismAtStart] at hx
  requests i x hx := by simp [ismAtStart] at hx
  stageMarks := Nat.le_refl 0

/-- The log holds the entries of its four kinds. -/
theorem Ism.log_length (m : Ism) : m.log.length = m.entriesOf [.request] + m.entriesOf [.stageMark] + m.measurements := by
  simp only [Ism.measurements, Ism.entriesOf]
  induction m.log with
  | nil => rfl
  | cons e rest ih =>
    simp only [List.countP_cons, List.length_cons, ih]
    cases e.kind <;> simp <;> omega

/-- The checks of an extension of a requester's chain: the chain's window, and room in the log (R33, R36, R37). -/
theorem checkExtend_open {chain : Nat} (h2 : 2 ≤ chain) (h7 : chain ≤ 7) (m : Ism) :
    checkExtend chain m =
      if min (chain - 2) 3 < m.stage.number then .error .stageClosed
      else if 36 ≤ m.log.length then .error .logFull
      else .ok () := by
  have key : ∃ w, extendWindow chain = some w ∧ w.number = min (chain - 2) 3 := by
    have cases : chain = 2 ∨ chain = 3 ∨ chain = 4 ∨ chain = 5 ∨ chain = 6 ∨ chain = 7 := by omega
    rcases cases with rfl | rfl | rfl | rfl | rfl | rfl <;> exact ⟨_, rfl, rfl⟩
  obtain ⟨w, hw, hn⟩ := key
  unfold checkExtend
  rw [hw]
  simp only [bind, Except.bind, check, hn]
  by_cases c1 : min (chain - 2) 3 < m.stage.number
  · have h1 : decide (m.stage.number ≤ min (chain - 2) 3) = false := by simpa only [decide_eq_false_iff_not, Nat.not_le] using c1
    simp only [h1, if_pos c1, Bool.false_eq_true, if_false]
  · have h1 : decide (m.stage.number ≤ min (chain - 2) 3) = true := by simpa only [decide_eq_true_eq, Nat.not_lt] using c1
    simp only [h1, if_neg c1, if_true]
    by_cases c2 : 36 ≤ m.log.length
    · have h2 : decide (m.log.length < 36) = false := by simpa only [decide_eq_false_iff_not, Nat.not_lt] using c2
      simp only [h2, if_pos c2, Bool.false_eq_true, if_false]
    · have h2 : decide (m.log.length < 36) = true := by simpa only [decide_eq_true_eq, Nat.not_le] using c2
      simp only [h2, if_neg c2, if_true]

/-- A chain that no window is of is the part's own (R33). -/
theorem checkExtend_reserved {chain : Nat} (h : extendWindow chain = none) (m : Ism) :
    checkExtend chain m = .error .chainReserved := by
  simp [checkExtend, h, bind, Except.bind]

end Sys2Proof.Machine
end

