-- ==== Sys2Proof/Laws/Regular.lean ====
section
/-! SUPPORT. What every effect but the store's and power's keeps, once for each shared operation: the records, the queue, the power, the time,
the law of chains and log, what bounds the log, and the ranges of the counts. -/

namespace Sys2Proof.Machine

/-- What a plain effect leaves alone. -/
structure Core where
  kept : Records
  pending : List Instr
  powered : Bool
  uptime : Nat
  ism : Ism
  releaseCount : Nat
  failures : Nat
  scanRecord : ScanRecord
  badRun : Nat
  overruns : Nat
  violations : Nat
  fires : Vector Nat 8
  unplaced : List Job
  unplacedScans : List Job
  unplacedImage : Option Job
  mark : CtxId
  jobsLeft : Nat
  state : GateState
  dwell : Option Nat
  selection : Selection
  rebootPending : Bool
  measureJobs : Nat
  store : StoreUnit
  heldBack : Option StoreItem
  manifest : Option Manifest

def State.core (s : State) : Core :=
  ⟨s.kept, s.pending, s.powered, s.uptime, s.ism, s.gate.releaseCount, s.gate.failures, s.gate.scanRecord, s.link.badRun,
    s.link.overruns, s.port.violations, s.reactions.counts, s.gate.unplaced, s.gate.unplacedScans,
    s.image.unplaced, s.digest.mark, s.gate.jobsLeft, s.gate.state, s.gate.dwell, s.gate.selection, s.gate.rebootPending, s.measureJobs,
    s.store, s.keys.held, s.image.verification.bind (·.manifest)⟩

/-- An effect from one state to another that changes no record, keeps the queue, the power and the time, and keeps the laws of the chains and
the log, of the counts and of the jobs. -/
structure Keeps (s t : State) : Prop where
  kept : t.kept = s.kept
  pending : t.pending = s.pending
  powered : t.powered = s.powered
  uptime : t.uptime = s.uptime
  mark : t.digest.mark = s.digest.mark
  measured : s.ism.Lawful → t.ism.Lawful
  inRange : s.InRange → t.InRange
  jobs : s.JobsMatch → t.JobsMatch

/-- An effect that keeps what bounds the log as well, as every effect does but the Boot Gate's own, which do where it takes them. -/
structure Regular (s t : State) : Prop where
  kept : t.kept = s.kept
  pending : t.pending = s.pending
  powered : t.powered = s.powered
  uptime : t.uptime = s.uptime
  mark : t.digest.mark = s.digest.mark
  measured : s.ism.Lawful → t.ism.Lawful
  inRange : s.InRange → t.InRange
  jobs : s.JobsMatch → t.JobsMatch
  bounded : s.JobsMatch → s.LogBounded → t.LogBounded

theorem Regular.keeps {s t : State} (r : Regular s t) : Keeps s t :=
  ⟨r.kept, r.pending, r.powered, r.uptime, r.mark, r.measured, r.inRange, r.jobs⟩

theorem Keeps.regular {s t : State} (k : Keeps s t) (b : s.JobsMatch → s.LogBounded → t.LogBounded) : Regular s t :=
  ⟨k.kept, k.pending, k.powered, k.uptime, k.mark, k.measured, k.inRange, k.jobs, b⟩

/-- An effect that keeps the laws, and what bounds the log where that bounds it. -/
theorem Keeps.bounded {s t : State} (k : Keeps s t) (b : s.LogBounded → Regular s t) : Regular s t :=
  k.regular fun j l => (b l).bounded j l

theorem Keeps.refl (s : State) : Keeps s s := ⟨rfl, rfl, rfl, rfl, rfl, id, id, id⟩

/-- Two effects, the last one named first, as a term names them. -/
theorem Keeps.after {s t u : State} (k : Keeps t u) (h : Keeps s t) : Keeps s u :=
  ⟨k.kept.trans h.kept, k.pending.trans h.pending, k.powered.trans h.powered, k.uptime.trans h.uptime, k.mark.trans h.mark,
    fun l => k.measured (h.measured l), fun l => k.inRange (h.inRange l), fun l => k.jobs (h.jobs l)⟩

theorem Regular.refl (s : State) : Regular s s := ⟨rfl, rfl, rfl, rfl, rfl, id, id, id, fun _ => id⟩

theorem Regular.trans {s t u : State} (h : Regular s t) (k : Regular t u) : Regular s u :=
  ⟨k.kept.trans h.kept, k.pending.trans h.pending, k.powered.trans h.powered, k.uptime.trans h.uptime, k.mark.trans h.mark,
    fun l => k.measured (h.measured l), fun l => k.inRange (h.inRange l), fun l => k.jobs (h.jobs l), fun j l => k.bounded (h.jobs j) (h.bounded j l)⟩

/-- The same in the order in which a term names its effects: the last one first. -/
theorem Regular.after {s t u : State} (k : Regular t u) (h : Regular s t) : Regular s u := h.trans k

/-- An effect that leaves the whole core alone. -/
theorem Regular.plain {s t : State} (h : t.core = s.core) : Regular s t := by
  simp only [State.core, Core.mk.injEq] at h
  obtain ⟨h1, h2, h3, h4, h5, h6, h7, h8, h9, h10, h11, h12, h13, h14, h15, h16, h17, h18, h19, h20, h21, h22, h23, h24, h25⟩ := h
  refine ⟨h1, h2, h3, h4, h16, fun l => h5 ▸ l, fun l => ?_,
    fun l => ⟨h13 ▸ l.measured, h14 ▸ l.scanned, h15 ▸ l.verified⟩, fun _ l => ?_⟩
  · exact ⟨h6 ▸ l.releaseCount, h7 ▸ l.failures, h8 ▸ l.rounds, h8 ▸ l.skips, h9 ▸ l.badRun, h10 ▸ l.overruns,
      h11 ▸ l.violations, h12 ▸ l.fires, h4 ▸ l.uptime⟩
  · exact ⟨by rw [h22, h17]; exact l.jobs, by rw [h5, h17]; exact l.total, by rw [h17, h18, h19, h20]; exact l.measuring,
      by rw [h20, h18, h19, h5]; exact l.selecting, by simp only [State.held]; rw [h21, h18]; exact l.reboot,
      by simp only [State.begun]; rw [h23, h20]; exact l.trial, by rw [h24]; exact l.heldBack, h1 ▸ l.records,
      by simp only [State.begun]; rw [h23]; exact l.writes, by rw [h25]; exact l.manifest⟩

/-- An effect that changes, beside what no core holds, only Image Acceptance's unit, leaves it no job or one of its own purpose, and no manifest
or the one it had. -/
theorem Regular.image {s t : State} (h : ({ t with image := s.image } : State).core = s.core)
    (hj : ∀ j ∈ t.image.unplaced, j.purpose = .imageVerify)
    (hm : ∀ m, t.image.verification.bind (·.manifest) = some m → s.image.verification.bind (·.manifest) = some m) : Regular s t := by
  have r := Regular.plain h
  exact ⟨r.kept, r.pending, r.powered, r.uptime, r.mark, r.measured,
    fun l => { r.inRange l with }, fun l => ⟨(r.jobs l).measured, (r.jobs l).scanned, hj⟩,
    fun j l => { r.bounded j l with manifest := fun m k => l.manifest m (hm m k) }⟩

/-! ## The mark of the Digest Engine (R45) -/

@[simp] theorem DigestEngine.withContext_mark (d : DigestEngine) (which : CtxId) (c : Context) :
    (d.withContext which c).mark = d.mark := by cases which <;> rfl

@[simp] theorem DigestEngine.takeBlock_mark (d : DigestEngine) : d.takeBlock.mark = d.mark := by
  unfold DigestEngine.takeBlock
  split <;> rfl

@[simp] theorem DigestEngine.clear_mark (which : CtxId) (d : DigestEngine) : (d.clear which).mark = d.mark :=
  d.withContext_mark which Context.cleared

@[simp] theorem DigestEngine.beginLink_mark (key : Option Bytes) (b : Bytes) (d : DigestEngine) :
    (d.beginLink key b).mark = d.mark := by simp [DigestEngine.beginLink]

@[simp] theorem DigestEngine.absorbed_mark (a : Absorption) (d : DigestEngine) : (d.absorbed a).mark = a.context := by
  unfold DigestEngine.absorbed
  split <;> simp

/-! ## The shared operations -/

theorem settle_regular (s : State) : Regular s s.settle := .plain rfl
theorem raise_regular (f : Flag) (s : State) : Regular s (s.raise f) := .plain rfl
theorem clearFlags_regular (m : BitVec 12) (s : State) : Regular s (s.clearFlags m) := .plain rfl

theorem handOver_keeps (op : StoreOp) (a : After) (s : State) : Keeps s (s.handOver op a) :=
  ⟨rfl, rfl, rfl, rfl, rfl, id, fun l => { l with }, fun l => { l with }⟩

/-- A write handed over that puts no more than 8 regions anywhere and is not a trial's. -/
theorem handOver_regular (op : StoreOp) (a : After) (s : State) (ho : s.LogBounded → op.FewRegions := by exact fun _ => trivial)
    (ha : a ≠ .trialSelected := by exact nofun) : Regular s (s.handOver op a) :=
  ⟨rfl, rfl, rfl, rfl, rfl, id, fun l => { l with }, fun l => { l with }, fun _ l => { l with
    trial := by
      have : (s.handOver op a).begun = s.begun ++ [⟨op, a⟩] := (List.append_assoc _ _ _).symm
      have ha' : (a == After.trialSelected) = false := by simpa using ha
      rw [this, List.countP_append, List.countP_singleton, ha']
      exact l.trial
    writes := by
      have : (s.handOver op a).begun = s.begun ++ [⟨op, a⟩] := (List.append_assoc _ _ _).symm
      rw [this]
      intro item m
      rcases List.mem_append.1 m with m | m
      · exact l.writes item m
      · rw [List.mem_singleton.1 m]
        exact ho l }⟩

theorem sends_regular (b : Bytes) (s : State) : Regular s (sends b s) := .plain rfl
theorem sendsHeld_regular (n : Nat) (s : State) : Regular s (sendsHeld n s) := .plain rfl
theorem sendsBusy_regular (n : Nat) (s : State) : Regular s (sendsBusy n s) := .plain rfl
theorem answerAs_regular (i : Byte) (st : Status) (p : Bytes) (s : State) : Regular s (answerAs i st p s) := .plain rfl
theorem answer_regular (st : Status) (p : Bytes) (s : State) : Regular s (answer st p s) := .plain rfl
theorem refuse_regular (st : Status) (s : State) : Regular s (refuse st s) := .plain rfl
theorem beginDigest_regular (k : Option Bytes) (b : Bytes) (sv : Service) (s : State) : Regular s (beginDigest k b sv s) :=
  .plain (by simp [State.core, beginDigest, State.measureJobs])
theorem closeWindow_regular (s : State) : Regular s (closeWindow s) := .plain rfl
theorem openWindow_regular (s : State) : Regular s (openWindow s) := .plain rfl

theorem saturating_le (m n : Nat) : saturating m n ≤ m := Nat.min_le_right _ _

theorem raiseBadRun_regular (s : State) : Regular s s.raiseBadRun :=
  ⟨rfl, rfl, rfl, rfl, rfl, id, fun l => { l with badRun := saturating_le _ _ },
    fun l => ⟨l.measured, l.scanned, l.verified⟩, fun _ l => { l with }⟩

theorem acceptFrame_regular (s : State) : Regular s s.acceptFrame :=
  ⟨rfl, rfl, rfl, rfl, rfl, id, fun l => { l with badRun := Nat.zero_le _ },
    fun l => ⟨l.measured, l.scanned, l.verified⟩, fun _ l => { l with }⟩

/-- A request's extension of a chain with its entry, below the limit of R36. -/
theorem appendRequest_regular (c i : Nat) (tag d : Bytes) (s : State) (h : s.ism.log.length < 36) :
    Regular s (appendRequest c i tag d s) :=
  ⟨rfl, rfl, rfl, rfl, rfl, fun l => l.append c .request d (some i) tag (fun _ => h) (fun k => by cases k),
    fun l => { l with }, fun l => { l with }, fun _ l => { l with
      total := by
        change Ism.measurements (s.ism.append c .request d (some i) tag) + _ ≤ 8
        rw [Ism.measurements, Ism.entriesOf_append]
        exact l.total
      selecting := fun k => ⟨(l.selecting k).1, (l.selecting k).2.1, by
        change Ism.measurements (s.ism.append c .request d (some i) tag) = 0
        rw [Ism.measurements, Ism.entriesOf_append]
        exact (l.selecting k).2.2⟩ }⟩

/-! ## Checks -/

/-- What a successful check gives. -/
def Checked.Gives {α : Type} (result : Checked α) (P : α → Prop) : Prop := ∀ a, result = .ok a → P a

theorem Checked.gives_bind {α β : Type} {x : Checked α} {f : α → Checked β} {P : β → Prop}
    (h : ∀ a, x = .ok a → Checked.Gives (f a) P) : Checked.Gives (x >>= f) P := by
  intro b hb
  cases x with
  | error e => cases hb
  | ok a => exact h a rfl b hb

theorem Checked.gives_pure {α : Type} {a : α} {P : α → Prop} (h : P a) : Checked.Gives (pure a) P := by
  intro b hb
  cases hb
  exact h

theorem Checked.gives_ok {α : Type} {a : α} {P : α → Prop} (h : P a) : Checked.Gives (.ok a) P := Checked.gives_pure h

theorem Checked.gives_error {α : Type} {e : Status} {P : α → Prop} : Checked.Gives (.error e) P := by
  intro b hb
  cases hb

/-- A request that is refused or has a regular effect. -/
theorem served_regular {result : Checked State} {s : State} (h : result.Gives (Regular s)) :
    Regular s (served result s) := by
  unfold served
  split
  · exact h _ rfl
  · exact refuse_regular _ _

theorem answered_regular (result : Checked Bytes) (s : State) : Regular s (answered result s) := by
  unfold answered
  split
  · exact answer_regular _ _ _
  · exact refuse_regular _ _

/-! ## The Flash Reader -/

/-- What a requester has not placed is a part of what it had not placed. -/
theorem mem_placeAll {jobs : List Job} {r : FlashReader} {j : Job} (h : j ∈ (placeAll jobs r).1) : j ∈ jobs := by
  induction jobs generalizing r with
  | nil => exact h
  | cons a rest ih =>
    unfold placeAll at h
    split at h
    · exact List.mem_cons_of_mem _ (ih h)
    · exact h

/-- Jobs that join the list and those that stay unplaced are the same jobs. -/
theorem placeAll_countP (p : Job → Bool) (jobs : List Job) (r : FlashReader) :
    ((placeAll jobs r).2.entries ++ (placeAll jobs r).1).countP p = (r.entries ++ jobs).countP p := by
  induction jobs generalizing r with
  | nil => rfl
  | cons first rest ih =>
    unfold placeAll
    split
    · rw [ih]
      simp [FlashReader.entries]
    · rfl

/-- Jobs of another kind that join leave the count of the entries. -/
theorem placeAll_countP_other (p : Job → Bool) (jobs : List Job) (r : FlashReader) (h : ∀ j ∈ jobs, p j = false) :
    (placeAll jobs r).2.entries.countP p = r.entries.countP p := by
  have k := placeAll_countP p jobs r
  have h1 : jobs.countP p = 0 := List.countP_eq_zero.2 fun j m => by simp [h j m]
  have h2 : (placeAll jobs r).1.countP p = 0 := List.countP_eq_zero.2 fun j m => by simp [h j (mem_placeAll m)]
  simpa [List.countP_append, h1, h2] using k

/-- The job that starts leaves the waiting jobs for the job in progress. -/
theorem FlashReader.start_countP (p : Job → Bool) (r : FlashReader) : r.start.entries.countP p = r.entries.countP p := by
  unfold FlashReader.start
  split
  · rename_i j hc hn
    have hm : j ∈ r.waiting := by
      unfold FlashReader.next at hn
      simp only [Option.or_eq_some_iff] at hn
      rcases hn with e | ⟨_, e | ⟨_, e⟩⟩ <;> exact List.mem_of_find?_eq_some e
    simp only [FlashReader.entries, hc, Option.toList, List.nil_append]
    exact (List.perm_cons_erase hm).symm.countP_eq p
  · rfl

theorem start_regular (s : State) : Regular s { s with reader := s.reader.start } :=
  ⟨rfl, rfl, rfl, rfl, rfl, id, fun l => { l with }, fun l => { l with }, fun _ l => { l with
    jobs := by
      have := l.jobs
      simp only [State.measureJobs, List.countP_append, FlashReader.start_countP] at this ⊢
      exact this }⟩

theorem refill_regular (s : State) : Regular s (refill s) := by
  refine ⟨rfl, rfl, rfl, rfl, rfl, id, fun l => { l with },
    fun l => ⟨fun j hj => l.measured j (mem_placeAll hj), fun j hj => ?_,
      fun j hj => l.verified j (Option.mem_toList.1 (mem_placeAll (List.mem_of_mem_head? hj)))⟩, fun m l => { l with jobs := ?_ }⟩
  · refine l.scanned j ?_
    revert hj
    unfold refill BootGate.unplacedScans
    cases s.gate.scanRound with
    | none => exact id
    | some round => exact mem_placeAll
  · have other : ∀ jobs : List Job, (∀ j ∈ jobs, j.purpose ≠ .bootMeasure) → ∀ j ∈ jobs, (j.purpose == Purpose.bootMeasure) = false :=
      fun _ h j hj => by simpa using h j hj
    have h1 := placeAll_countP (·.purpose == .bootMeasure) s.gate.unplaced s.reader
    have h2 := placeAll_countP_other (·.purpose == .bootMeasure) s.image.unplaced.toList (placeAll s.gate.unplaced s.reader).2
      (other _ fun j hj => by simp [m.verified j (Option.mem_toList.1 hj)])
    have h3 := placeAll_countP_other (·.purpose == .bootMeasure) s.gate.unplacedScans
      (placeAll s.image.unplaced.toList (placeAll s.gate.unplaced s.reader).2).2 (other _ fun j hj => by simp [m.scanned j hj])
    have := l.jobs
    simp only [State.measureJobs, List.countP_append] at this h1 ⊢
    simp only [refill, BootGate.unplacedScans] at h3 ⊢
    omega

theorem pump_regular (s : State) : Regular s (pump s) := .trans (refill_regular s) (start_regular _)

/-- An effect that only takes entries off the Flash Reader's list. -/
theorem Regular.fewer {s t : State} (h : ({ t with reader := s.reader } : State).core = s.core)
    (hj : t.measureJobs ≤ s.measureJobs) : Regular s t := by
  have r := Regular.plain h
  exact ⟨r.kept, r.pending, r.powered, r.uptime, r.mark, r.measured, fun l => { r.inRange l with },
    fun l => ⟨(r.jobs l).measured, (r.jobs l).scanned, (r.jobs l).verified⟩,
    fun j l => { r.bounded j l with
      jobs := Nat.le_trans hj (by have := (r.bounded j l).jobs; have := l.jobs; simp only [State.core, Core.mk.injEq] at h; omega) }⟩

theorem dropCurrent_measureJobs (s : State) : (dropCurrent s).measureJobs ≤ s.measureJobs := by
  simp only [State.measureJobs, dropCurrent, FlashReader.entries, Option.toList, List.nil_append, List.countP_append]
  omega

theorem dropCurrent_regular (s : State) : Regular s (dropCurrent s) := .fewer (by simp [State.core, dropCurrent, State.measureJobs]) (dropCurrent_measureJobs s)

theorem filterWaiting_regular (p : Purpose) (s : State) :
    Regular s { s with reader := { s.reader with waiting := s.reader.waiting.filter fun j => j.purpose != p } } :=
  .fewer rfl (by
    simp only [State.measureJobs, FlashReader.entries, List.countP_append]
    have := (List.filter_sublist (l := s.reader.waiting) (p := fun j => j.purpose != p)).countP_le (p := fun j => j.purpose == .bootMeasure)
    omega)

theorem cancelJobs_regular (p : Purpose) (s : State) : Regular s (cancelJobs p s) := by
  unfold cancelJobs
  dsimp only
  refine .trans (filterWaiting_regular p s) ?_
  split
  · split
    · split
      · exact .plain rfl
      · exact dropCurrent_regular _
    · exact .refl _
  · exact .refl _

theorem stopVerification_regular (s : State) : Regular s (stopVerification s) :=
  .after (pump_regular _) (.after (cancelJobs_regular _ _) (.image rfl (fun _ hj => absurd hj (Option.not_mem_none _)) nofun))

theorem reject_regular (r : RejectReason) (s : State) : Regular s (reject r s) :=
  .after (handOver_regular _ _ _ fun _ => by exact nofun) (stopVerification_regular s)

theorem startBurst_regular (s : State) : Regular s (startBurst s) := by
  unfold startBurst
  split
  · exact .plain rfl
  · exact .refl s

/-! ## The start of measurement -/

theorem StoreItem.orphaned_trial (item : StoreItem) : (item.orphaned.after == .trialSelected) = (item.after == .trialSelected) := by
  unfold StoreItem.orphaned
  cases item.after <;> rfl

theorem releaseCycle_regular (s : State) : Regular s (releaseCycle s) :=
  ⟨rfl, rfl, rfl, rfl, rfl, id, fun l => { l with }, fun l => { l with }, fun _ l => { l with
    trial := by
      have : (releaseCycle s).begun = s.begun.map StoreItem.orphaned := by
        cases h : s.store.making <;> simp [State.begun, releaseCycle, StoreUnit.orphaned, h]
      rw [this, List.countP_map, Function.comp_def]
      simp only [StoreItem.orphaned_trial]
      exact l.trial
    heldBack := nofun
    writes := by
      have : (releaseCycle s).begun = s.begun.map StoreItem.orphaned := by
        cases h : s.store.making <;> simp [State.begun, releaseCycle, StoreUnit.orphaned, h]
      rw [this]
      intro item m
      obtain ⟨x, hx, rfl⟩ := List.mem_map.1 m
      exact l.writes x hx }⟩

theorem endSoc_violations (p : FlashPort) : p.endSoc.violations = p.violations := by
  unfold FlashPort.endSoc
  split <;> rfl

theorem clearBoot_regular (s : State) : Regular s (clearBoot s) :=
  ⟨rfl, rfl, rfl, rfl, rfl, fun _ => Ism.Lawful.start, fun l =>
    ⟨l.releaseCount, l.failures, l.rounds, l.skips, l.badRun, l.overruns,
      (endSoc_violations s.port).symm ▸ l.violations, l.fires, l.uptime⟩,
    fun l => ⟨l.measured, l.scanned, l.verified⟩,
    fun _ l => { l with
      total := by
        have : s.ism.measurements + s.gate.jobsLeft ≤ 8 := l.total
        change 0 + s.gate.jobsLeft ≤ 8
        omega
      selecting := fun k => ⟨(l.selecting k).1, (l.selecting k).2.1, rfl⟩ }⟩

theorem cancelAtStart_regular (s : State) : Regular s (cancelAtStart s) :=
  .after (cancelJobs_regular _ _) (.after (cancelJobs_regular _ _) (.image rfl (fun _ hj => absurd hj (Option.not_mem_none _)) (by
    cases s.image.verification <;> exact fun _ h => h)))

theorem cancelJobs_gate (p : Purpose) (s : State) : (cancelJobs p s).gate = s.gate := by
  unfold cancelJobs
  dsimp only
  (repeat' split) <;> rfl

theorem cancelAtStart_gate (s : State) : (cancelAtStart s).gate = s.gate := by
  simp only [cancelAtStart, cancelJobs_gate]

theorem interruptStep_regular (s : State) : Regular s (interruptStep s) := by
  unfold interruptStep
  split
  · rename_i sp hsel
    split
    · have h : Regular s { s with gate := { s.gate with selection := .awaiting sp true } } :=
        ⟨rfl, rfl, rfl, rfl, rfl, id, fun l => { l with }, fun l => { l with }, fun _ l => { l with
          measuring := fun k => by have := (l.measuring k).2.2; rw [hsel] at this; cases this
          selecting := fun _ => l.selecting (by rw [hsel]; exact nofun)
          trial := by have := l.trial; rw [hsel] at this; exact this }⟩
      dsimp only
      split
      · exact .after (reject_regular _ _) h
      · exact .after (stopVerification_regular _) h
    · exact .refl s
  · exact .refl s

/-- Where no measurement job is left and no bank is being selected the Boot Gate may end a measurement or a boot. -/
def State.Settled (s : State) : Prop := s.gate.jobsLeft = 0 ∧ s.gate.selection = .idle

/-- Where the SoC runs the Boot Gate is settled. -/
theorem State.LogBounded.running {s : State} (l : s.LogBounded) (h : s.held = false) : s.Settled := by
  have hm : s.gate.state ≠ .measuring := by
    intro e
    simp [State.held, e] at h
  exact ⟨Decidable.byContradiction fun k => hm (l.measuring (Nat.pos_of_ne_zero k)).1,
    Decidable.byContradiction fun k => hm (l.selecting k).1⟩

/-- A start of measurement up to the selection that it begins. -/
theorem clearAndCancel_regular (s : State) : Regular s (cancelAtStart (clearBoot (releaseCycle s))) :=
  .after (cancelAtStart_regular _) (.after (clearBoot_regular _) (releaseCycle_regular s))

theorem startOfMeasurement_keeps (p : Bool) (s : State) : Keeps s (startOfMeasurement p s) := by
  unfold startOfMeasurement
  dsimp only
  refine .after ?_ (clearAndCancel_regular s).keeps
  refine .after (.after (interruptStep_regular _).keeps (pump_regular _).keeps) ?_
  exact ⟨rfl, rfl, rfl, rfl, rfl, id, fun l => { l with }, fun l => ⟨l.measured, fun j hj => absurd hj List.not_mem_nil, l.verified⟩⟩

/-- A start of measurement where no measurement job is left and no trial's write is being made. -/
theorem startOfMeasurement_regular (p : Bool) (s : State) (h : s.LogBounded → s.gate.jobsLeft = 0 ∧ s.gate.selection ≠ .trialWrite) :
    Regular s (startOfMeasurement p s) := by
  refine (startOfMeasurement_keeps p s).regular fun j l => ?_
  have r := clearAndCancel_regular s
  have hg : (cancelAtStart (clearBoot (releaseCycle s))).gate = s.gate := cancelAtStart_gate _
  have hi : (cancelAtStart (clearBoot (releaseCycle s))).ism = ismAtStart := (cancelAtStart_work _).ism
  unfold startOfMeasurement
  dsimp only
  generalize cancelAtStart (clearBoot (releaseCycle s)) = t at r hg hi
  obtain ⟨h1, h2⟩ := h l
  rw [← hg] at h1 h2
  refine (Regular.after (interruptStep_regular _) (pump_regular _)).bounded
    ⟨(r.jobs j).measured, fun j hj => absurd hj List.not_mem_nil, (r.jobs j).verified⟩ ?_
  exact { r.bounded j l with
    measuring := fun k => absurd h1 (Nat.pos_iff_ne_zero.1 k)
    selecting := fun _ => ⟨rfl, rfl, by rw [hi]; rfl⟩
    reboot := nofun
    trial := by have := (r.bounded j l).trial; rw [if_neg h2] at this; exact this }

/-- A start of measurement where the Boot Gate is settled. -/
theorem startOfMeasurement_settled (p : Bool) (s : State) (h : s.LogBounded → s.Settled) : Regular s (startOfMeasurement p s) :=
  startOfMeasurement_regular p s fun l => ⟨(h l).1, by rw [(h l).2]; exact nofun⟩

theorem holdSoc_regular (s : State) : Regular s (holdSoc s) := by
  unfold holdSoc
  split
  · rename_i h
    exact startOfMeasurement_settled _ _ fun l => l.running (by simpa [State.socRuns] using h)
  · exact .refl s

theorem admitFrame_regular (s : State) : Regular s (admitFrame s) := by
  unfold admitFrame State.admittedGate
  split
  · rename_i h
    have hh : s.held = false := by simp [State.held, h]
    exact ⟨rfl, rfl, rfl, rfl, rfl, id, fun l => { l with }, fun l => { l with }, fun _ l => { l with
      measuring := fun k => absurd (l.running hh).1 (Nat.pos_iff_ne_zero.1 k)
      selecting := fun k => absurd (l.running hh).2 k
      reboot := fun _ => rfl }⟩
  · exact .plain rfl
  · exact .refl s

theorem enterFaultHold_regular (s : State) (h : s.LogBounded → s.Settled) : Regular s (enterFaultHold s) :=
  ⟨rfl, rfl, rfl, rfl, rfl, id, fun l =>
    ⟨l.releaseCount, l.failures, l.rounds, l.skips, l.badRun, l.overruns,
      (endSoc_violations s.port).symm ▸ l.violations, l.fires, l.uptime⟩,
    fun l => ⟨l.measured, l.scanned, l.verified⟩, fun _ l => { l with
      measuring := fun k => absurd (h l).1 (Nat.pos_iff_ne_zero.1 k)
      selecting := fun k => absurd (h l).2 k
      reboot := nofun }⟩

theorem enterFaultHold_keeps (s : State) : Keeps s (enterFaultHold s) :=
  ⟨rfl, rfl, rfl, rfl, rfl, id, fun l =>
    ⟨l.releaseCount, l.failures, l.rounds, l.skips, l.badRun, l.overruns,
      (endSoc_violations s.port).symm ▸ l.violations, l.fires, l.uptime⟩,
    fun l => ⟨l.measured, l.scanned, l.verified⟩⟩

/-- A failed attempt where the SoC runs and no reboot is pending. -/
theorem failAttempt_regular (s : State) (hr : s.held = false) (hp : s.gate.rebootPending = false) : Regular s (failAttempt s) := by
  have hs : ∀ t : State, t.held = s.held → t.LogBounded → t.Settled := fun t e l => l.running (e.trans hr)
  unfold failAttempt
  dsimp only
  split
  · exact .after (startOfMeasurement_settled _ _ (hs _ rfl)) (.plain rfl)
  · split
    · next h =>
      exact ⟨rfl, rfl, rfl, rfl, rfl, id, fun l =>
        ⟨l.releaseCount, Nat.le_of_lt h, l.rounds, l.skips, l.badRun, l.overruns,
          (endSoc_violations s.port).symm ▸ l.violations, l.fires, l.uptime⟩,
        fun l => ⟨l.measured, l.scanned, l.verified⟩, fun _ l => { l with
          measuring := fun k => absurd (hs s rfl l).1 (Nat.pos_iff_ne_zero.1 k)
          selecting := fun k => absurd (hs s rfl l).2 k
          reboot := fun k => absurd k (by rw [show ({ s with gate := { s.gate with attach := none, complete := none } } : State).gate.rebootPending = false from hp]; exact nofun) }⟩
    · refine .after (enterFaultHold_regular _ (hs _ rfl)) ?_
      exact ⟨rfl, rfl, rfl, rfl, rfl, id, fun l =>
        ⟨l.releaseCount, Nat.le_refl 3, l.rounds, l.skips, l.badRun, l.overruns, l.violations, l.fires, l.uptime⟩,
        fun l => ⟨l.measured, l.scanned, l.verified⟩, fun _ l => { l with }⟩

/-- A failed attempt, or the pending reboot, where the SoC runs. -/
theorem failOrReboot_regular (s : State) (hr : s.held = false) : Regular s (failOrReboot s) := by
  unfold failOrReboot
  split
  · exact startOfMeasurement_settled _ _ fun l => l.running hr
  · next h => exact failAttempt_regular _ hr (Bool.eq_false_iff.2 h)

theorem stageReached_regular (stage : Stage) (s : State) : Regular s (stageReached stage s) := by
  unfold stageReached
  split
  · next h =>
    have hh : s.held = false := by simp [State.held, h.1]
    exact ⟨rfl, rfl, rfl, rfl, rfl, id, fun l =>
      ⟨l.releaseCount, Nat.zero_le 3, l.rounds, l.skips, l.badRun, l.overruns, l.violations, l.fires, l.uptime⟩,
      fun l => ⟨l.measured, l.scanned, l.verified⟩, fun _ l => { l with
        measuring := fun k => absurd (l.running hh).1 (Nat.pos_iff_ne_zero.1 k)
        selecting := fun k => absurd (l.running hh).2 k
        reboot := fun _ => rfl }⟩
  · exact .refl s

/-- An advance that raises the stage (R30, R78). -/
theorem advanceTo_regular (target : Stage) (s : State) (h : s.ism.stage.number < target.number) :
    Regular s (advanceTo target s) := by
  have hm : (s.ism.advance target).measurements = s.ism.measurements := by
    simp only [Ism.advance, Ism.measurements, Ism.entriesOf_append]
    rfl
  refine .after (stageReached_regular _ _)
    ⟨rfl, rfl, rfl, rfl, rfl, fun l => l.advance target h, fun l => { l with }, fun l => { l with }, fun _ l => { l with
      total := by change (s.ism.advance target).measurements + _ ≤ 8; rw [hm]; exact l.total
      selecting := fun k => ⟨(l.selecting k).1, (l.selecting k).2.1, by
        change (s.ism.advance target).measurements = 0
        rw [hm]
        exact (l.selecting k).2.2⟩ }⟩

/-! ## The Reaction Table -/

theorem markFired_regular (entries : List Nat) (s : State) : Regular s (markFired entries s) :=
  ⟨rfl, rfl, rfl, rfl, rfl, id, fun l =>
    ⟨l.releaseCount, l.failures, l.rounds, l.skips, l.badRun, l.overruns, l.violations, by
      intro i n hn
      simp only [markFired, Vector.getElem?_mapIdx, Option.map_eq_some_iff] at hn
      obtain ⟨m, hm, rfl⟩ := hn
      split
      · exact saturating_le _ _
      · exact l.fires i m hm, l.uptime⟩,
    fun l => ⟨l.measured, l.scanned, l.verified⟩, fun _ l => { l with }⟩

theorem showPattern_regular (actions : List Action) (s : State) : Regular s (showPattern actions s) := by
  unfold showPattern
  split <;> exact .plain rfl

theorem suspendSlots_regular (set : Byte) (s : State) : Regular s (suspendSlots set s) := .plain rfl

theorem awaitReset_regular (s : State) : Regular s (awaitReset s) := by
  unfold awaitReset
  split <;> exact .plain rfl

theorem gateActions_regular (actions : List Action) (s : State) : Regular s (gateActions actions s) := by
  unfold gateActions
  split
  · exact handOver_regular _ _ _
  · split
    · exact holdSoc_regular _
    · exact .refl s

theorem handActions_regular (actions : List Action) (s : State) : Regular s (handActions actions s) := by
  unfold handActions
  dsimp only
  refine .trans (.trans (showPattern_regular actions s) (suspendSlots_regular (suspendSet actions) _)) ?_
  split
  · exact .after (gateActions_regular _ _) (awaitReset_regular _)
  · exact gateActions_regular _ _

theorem fire_regular (c : Condition) (n : Nat) (s : State) : Regular s (fire c n s) := by
  unfold fire
  split
  · exact .refl s
  · exact .after (handActions_regular _ _) (.after (raise_regular _ _) (markFired_regular _ _))

/-! ## Selection and measurement -/

theorem release_regular (s : State) (hs : s.LogBounded → s.Settled) : Regular s (release s) := by
  have h : Regular s { s with
      gate := { s.gate with
        state := .released, releaseCount := (s.gate.releaseCount + 1) % 64,
        attach := s.inSeconds s.kept.params.attachLimit }
      port := { s.port with mapping := some s.releaseMapping } } :=
    ⟨rfl, rfl, rfl, rfl, rfl, id, fun l =>
      ⟨Nat.mod_lt _ (by decide), l.failures, l.rounds, l.skips, l.badRun, l.overruns, l.violations, l.fires, l.uptime⟩,
      fun l => ⟨l.measured, l.scanned, l.verified⟩, fun _ l => { l with
        measuring := fun k => absurd (hs l).1 (Nat.pos_iff_ne_zero.1 k)
        selecting := fun k => absurd (hs l).2 k
        reboot := fun _ => rfl }⟩
  unfold release
  dsimp only
  split
  · exact .after (reject_regular _ _) h
  · exact h

theorem release_keeps (s : State) : Keeps s (release s) := by
  have h : Keeps s { s with
      gate := { s.gate with
        state := .released, releaseCount := (s.gate.releaseCount + 1) % 64,
        attach := s.inSeconds s.kept.params.attachLimit }
      port := { s.port with mapping := some s.releaseMapping } } :=
    ⟨rfl, rfl, rfl, rfl, rfl, id, fun l =>
      ⟨Nat.mod_lt _ (by decide), l.failures, l.rounds, l.skips, l.badRun, l.overruns, l.violations, l.fires, l.uptime⟩,
      fun l => ⟨l.measured, l.scanned, l.verified⟩⟩
  unfold release
  dsimp only
  split
  · exact .after (reject_regular _ _).keeps h
  · exact h

theorem measurementEnd_keeps (s : State) : Keeps s (measurementEnd s) := by
  unfold measurementEnd
  split
  · split
    · exact .after (release_keeps _) (.after (fire_regular _ _ _).keeps (.after (raise_regular _ _).keeps (Regular.keeps (.plain rfl))))
    · split
      · exact startOfMeasurement_keeps _ _
      · exact .after (enterFaultHold_keeps _) (fire_regular _ _ _).keeps
  · exact release_keeps s

/-- The end of a measurement, in which the SoC is held and no job is left. -/
theorem measurementEnd_regular (s : State) (hh : s.held = true) (hs : s.Settled) : Regular s (measurementEnd s) := by
  have hg : ∀ t : State, t.gate = s.gate → t.Settled := by
    intro t e
    simpa only [State.Settled, e] using hs
  unfold measurementEnd
  split
  · split
    · refine .after (release_regular _ fun _ => ?_) (.after (fire_regular _ _ _) (.after (raise_regular _ _) (.plain rfl)))
      have := (fire_fired (condition := .bootMismatch) (count := 0)
        (s := State.raise .bootNote { s with gate := { s.gate with audit := true } }) (.inr hh)).gate
      simp only [State.Settled, this]
      exact hs
    · split
      · exact startOfMeasurement_settled _ _ fun _ => hs
      · exact .after (enterFaultHold_regular _ fun _ => hg _ (fire_fired (.inr hh)).gate) (fire_regular _ _ _)
  · exact release_regular s fun _ => hs

theorem regionJobs_purpose {p : Purpose} {marked : Region → Bool} {regions : List Region} {j : Job}
    (h : j ∈ regionJobs p marked regions) : j.purpose = p := by
  unfold regionJobs at h
  obtain ⟨⟨r, i⟩, _, hr⟩ := List.mem_filterMap.1 h
  dsimp only at hr
  split at hr <;> cases hr
  rfl

theorem regionJobs_length (p : Purpose) (marked : Region → Bool) (regions : List Region) :
    (regionJobs p marked regions).length ≤ regions.length := by
  refine Nat.le_trans (List.length_filterMap_le _ _) ?_
  simp

/-- The jobs of a selection wait for entries (R72). -/
def placeJobs (selected : BootBank) (o : Option BootedSet) (v : Verdict) (jobs : List Job) (s : State) : State :=
  { s with gate := { s.gate with
    selected := some selected, booted := o, verdict := v, unplaced := jobs, jobsLeft := jobs.length, selection := .idle } }

theorem placeJobs_keeps (selected : BootBank) (o : Option BootedSet) (v : Verdict) (jobs : List Job) (s : State)
    (hj : ∀ j ∈ jobs, j.purpose = .bootMeasure) : Keeps s (placeJobs selected o v jobs s) :=
  ⟨rfl, rfl, rfl, rfl, rfl, id, fun l => { l with }, fun l => ⟨hj, l.scanned, l.verified⟩⟩

theorem measure_keeps (selected : BootBank) (o : Option BootedSet) (v : Verdict) (jobs : List Job) (s : State)
    (hj : ∀ j ∈ jobs, j.purpose = .bootMeasure) : Keeps s (measure selected o v jobs s) := by
  have h : Keeps s (pump (placeJobs selected o v jobs s)) := .after (pump_regular _).keeps (placeJobs_keeps _ _ _ _ _ hj)
  unfold measure
  dsimp only
  split
  · exact .after (measurementEnd_keeps _) h
  · exact h

/-- A bank may be selected: its selection is under way, and no write of a trial is being made. -/
def State.Selects (s : State) : Prop := s.gate.selection ≠ .idle ∧ ∀ item ∈ s.begun, item.after ≠ .trialSelected

/-- The selection of at most 8 jobs. -/
theorem measure_regular (selected : BootBank) (o : Option BootedSet) (v : Verdict) (jobs : List Job) (s : State)
    (hj : ∀ j ∈ jobs, j.purpose = .bootMeasure) (hs : s.Selects) (hn : s.LogBounded → jobs.length ≤ 8) :
    Regular s (measure selected o v jobs s) := by
  refine (measure_keeps _ _ _ _ _ hj).regular fun j l => ?_
  have h0 : s.gate.jobsLeft = 0 := Decidable.byContradiction fun k => hs.1 (l.measuring (Nat.pos_of_ne_zero k)).2.2
  obtain ⟨h1, h2, h3⟩ := l.selecting hs.1
  have hl : (placeJobs selected o v jobs s).LogBounded := { l with
    jobs := by
      have hc : s.reader.entries.countP (·.purpose == .bootMeasure) = 0 := by
        have := l.jobs
        simp only [State.measureJobs, List.countP_append] at this
        omega
      simp only [State.measureJobs, placeJobs, List.countP_append, hc, Nat.zero_add]
      exact List.countP_le_length
    total := by
      change s.ism.measurements + jobs.length ≤ 8
      rw [h3, Nat.zero_add]
      exact hn l
    measuring := fun _ => ⟨h1, h2, rfl⟩
    selecting := fun k => absurd rfl k
    trial := by
      have : (s.begun.countP fun item => item.after == .trialSelected) = 0 :=
        List.countP_eq_zero.2 fun item m => by simpa using hs.2 item m
      exact Nat.le_trans (Nat.le_of_eq this) (Nat.zero_le _) }
  have hm : (placeJobs selected o v jobs s).JobsMatch := (placeJobs_keeps selected o v jobs s hj).jobs j
  unfold measure
  dsimp only
  split
  · rename_i he
    have hn : jobs.length = 0 := by simpa using he
    refine (measurementEnd_regular _ ?_ ⟨?_, rfl⟩).bounded ((pump_regular _).jobs hm) ((pump_regular _).bounded hm hl)
    · change (s.gate.state == .measuring || s.gate.state == .faultHold) = true
      rw [h1]
      rfl
    · exact hn
  · exact (pump_regular _).bounded hm hl

theorem measureSet_keeps (bank : Bank) (set : BootedSet) (s : State) : Keeps s (measureSet bank set s) :=
  measure_keeps _ _ _ _ _ fun _ h => regionJobs_purpose h

theorem measureSet_regular (bank : Bank) (set : BootedSet) (s : State) (hs : s.Selects)
    (hn : s.LogBounded → set.regions.length ≤ 8) : Regular s (measureSet bank set s) :=
  measure_regular _ _ _ _ _ (fun _ h => regionJobs_purpose h) hs fun l =>
    Nat.le_trans (regionJobs_length _ _ _) (hn l)

theorem selectActive_regular (s : State) (hs : s.Selects) : Regular s (selectActive s) := by
  unfold selectActive
  dsimp only
  split
  · refine measureSet_regular _ _ _ hs fun l => ?_
    cases h : s.kept.selector.active
    · exact l.records.goldenA
    · exact l.records.goldenB
  · exact measure_regular _ _ _ _ _ (fun _ h => absurd h List.not_mem_nil) hs fun _ => Nat.zero_le 8

theorem selectTrial_regular (s : State) (hs : s.Selects) : Regular s (selectTrial s) := by
  unfold selectTrial
  split
  · exact measureSet_regular _ _ _ hs fun l => l.records.candidate _ ‹_›
  · exact selectActive_regular _ hs

/-- A write that is no trial's leaves a selection under way. -/
theorem State.Selects.handOver {s : State} (h : s.Selects) (op : StoreOp) {a : After} (ha : a ≠ .trialSelected) :
    (s.handOver op a).Selects := by
  refine ⟨h.1, fun item m => ?_⟩
  have : (s.handOver op a).begun = s.begun ++ [⟨op, a⟩] := (List.append_assoc _ _ _).symm
  rw [this] at m
  rcases List.mem_append.1 m with m | m
  · exact h.2 item m
  · rw [List.mem_singleton.1 m]
    exact ha

/-- A condition event while the SoC is held leaves a selection under way. -/
theorem State.Selects.fire {s : State} (h : s.Selects) (hh : s.held = true) (c : Condition) (n : Nat) : (fire c n s).Selects := by
  have f := fire_fired (condition := c) (count := n) (s := s) (.inr hh)
  refine ⟨by rw [f.gate]; exact h.1, ?_⟩
  simp only [State.begun, f.making, f.waiting, ← List.append_assoc]
  intro item m
  rcases List.mem_append.1 m with m | m
  · exact h.2 item m
  · split at m
    · rw [List.mem_singleton.1 m]
      exact nofun
    · cases m

/-- In the selection of a bank the SoC is held. -/
theorem State.LogBounded.held {s : State} (l : s.LogBounded) (hs : s.Selects) : s.held = true := by
  have := (l.selecting hs.1).1
  simp [State.held, this]

theorem selectActive_keeps (s : State) : Keeps s (selectActive s) := by
  unfold selectActive
  dsimp only
  split
  · exact measureSet_keeps _ _ _
  · exact measure_keeps _ _ _ _ _ fun _ h => absurd h List.not_mem_nil

theorem selectTrial_keeps (s : State) : Keeps s (selectTrial s) := by
  unfold selectTrial
  split
  · exact measureSet_keeps _ _ _
  · exact selectActive_keeps _

/-- RECOVERY is set, in a selection that has cleared RECOVERY_NEXT (R69). -/
theorem recoverySet_regular (s : State) : Regular s
    { s.handOver (.recoveryNext false) .silent with
      gate := { (s.handOver (.recoveryNext false) .silent).gate with recovery := true } } :=
  .trans (handOver_regular (.recoveryNext false) .silent s) (.plain rfl)

theorem selectRecovery_keeps (s : State) : Keeps s (selectRecovery s) := by
  unfold selectRecovery
  dsimp only
  refine .after (measure_keeps _ _ _ _ _ ?_) (recoverySet_regular s).keeps
  intro j h
  rw [List.mem_singleton] at h
  rw [h]

theorem selectRecovery_regular (s : State) (hs : s.Selects) : Regular s (selectRecovery s) := by
  refine (selectRecovery_keeps s).bounded fun _ => ?_
  unfold selectRecovery
  dsimp only
  refine .after (measure_regular _ _ _ _ _ ?_ ?_ fun _ => (by decide : 1 ≤ 8))
    (recoverySet_regular s)
  · intro j h
    rw [List.mem_singleton] at h
    rw [h]
  · exact hs.handOver (.recoveryNext false) (a := .silent) nofun

theorem selectManufacture_keeps (s : State) : Keeps s (selectManufacture s) :=
  .after (release_keeps _) ⟨rfl, rfl, rfl, rfl, rfl, id, fun l => { l with }, fun l => ⟨l.measured, l.scanned, l.verified⟩⟩

theorem selectManufacture_regular (s : State) (hs : s.Selects) : Regular s (selectManufacture s) := by
  refine (selectManufacture_keeps s).bounded fun l => ?_
  have h0 : s.gate.jobsLeft = 0 := Decidable.byContradiction fun k => hs.1 (l.measuring (Nat.pos_of_ne_zero k)).2.2
  refine .after (release_regular _ fun _ => ⟨h0, rfl⟩) ?_
  exact ⟨rfl, rfl, rfl, rfl, rfl, id, fun l => { l with }, fun l => ⟨l.measured, l.scanned, l.verified⟩, fun _ l => { l with
    measuring := fun k => absurd h0 (Nat.pos_iff_ne_zero.1 k)
    selecting := fun k => absurd rfl k
    trial := by
      have : (s.begun.countP fun item => item.after == .trialSelected) = 0 :=
        List.countP_eq_zero.2 fun item m => by simpa using hs.2 item m
      exact Nat.le_trans (Nat.le_of_eq this) (Nat.zero_le _) }⟩

theorem trialFallback_keeps (s : State) : Keeps s (trialFallback s) :=
  .after (selectActive_keeps _)
    (.after (fire_regular _ _ _).keeps (handOver_regular _ _ _ fun _ => by exact nofun).keeps)

theorem trialFallback_regular (s : State) (hs : s.Selects) (hh : s.held = true) : Regular s (trialFallback s) :=
  .after (selectActive_regular _ ((hs.handOver _ (a := .silent) nofun).fire hh _ _))
    (.after (fire_regular _ _ _) (handOver_regular _ _ _ fun _ => by exact nofun))

/-- The write of a trial, of which one is made at a time (R70). -/
theorem trialTry_regular (s : State) (hs : s.Selects) :
    Regular s (State.handOver .trialTry .trialSelected { s with gate := { s.gate with selection := .trialWrite } }) :=
  ⟨rfl, rfl, rfl, rfl, rfl, id, fun l => { l with }, fun l => ⟨l.measured, l.scanned, l.verified⟩, fun _ l => { l with
    measuring := fun k => absurd (l.measuring k).2.2 hs.1
    selecting := fun _ => l.selecting hs.1
    trial := by
      have h0 : (s.begun.countP fun item => item.after == .trialSelected) = 0 :=
        List.countP_eq_zero.2 fun item m => by simpa using hs.2 item m
      have : (State.handOver .trialTry .trialSelected { s with gate := { s.gate with selection := .trialWrite } }).begun =
          s.begun ++ [⟨.trialTry, .trialSelected⟩] := (List.append_assoc _ _ _).symm
      rw [this, List.countP_append, h0]
      exact Nat.le_refl 1
    writes := by
      have : (State.handOver .trialTry .trialSelected { s with gate := { s.gate with selection := .trialWrite } }).begun =
          s.begun ++ [⟨.trialTry, .trialSelected⟩] := (List.append_assoc _ _ _).symm
      rw [this]
      intro item m
      rcases List.mem_append.1 m with m | m
      · exact l.writes item m
      · rw [List.mem_singleton.1 m]
        exact trivial }⟩

theorem selectBank_keeps (s : State) : Keeps s (selectBank s) := by
  unfold selectBank
  split
  · split
    · exact ⟨rfl, rfl, rfl, rfl, rfl, id, fun l => { l with }, fun l => ⟨l.measured, l.scanned, l.verified⟩⟩
    · exact trialFallback_keeps s
  · exact selectActive_keeps s

theorem selectBank_regular (s : State) (hs : s.Selects) (hh : s.held = true) : Regular s (selectBank s) := by
  unfold selectBank
  split
  · split
    · exact trialTry_regular s hs
    · exact trialFallback_regular s hs hh
  · exact selectActive_regular s hs

theorem select_keeps (p : Bool) (s : State) : Keeps s (select p s) := by
  unfold select
  split
  · exact selectManufacture_keeps s
  · split
    · exact selectRecovery_keeps s
    · split
      · exact .after (selectBank_keeps _) (handOver_regular _ _ _).keeps
      · exact selectBank_keeps s

theorem select_regular (p : Bool) (s : State) (hs : s.Selects) : Regular s (select p s) := by
  refine (select_keeps p s).bounded fun l => ?_
  have hh := l.held hs
  unfold select
  split
  · exact selectManufacture_regular s hs
  · split
    · exact selectRecovery_regular s hs
    · split
      · exact .after (selectBank_regular _ (hs.handOver _ nofun) hh) (handOver_regular _ _ _)
      · exact selectBank_regular s hs hh

/-- Bank selection, taken where it is awaited (R68). -/
theorem selectNow_regular (s : State) : Regular s (selectNow s) := by
  unfold selectNow
  split
  · next p q h =>
    refine (select_keeps _ _).bounded fun l => select_regular _ _ ⟨by rw [h]; exact nofun, fun item m e => ?_⟩
    have := l.trial
    rw [h] at this
    have := List.countP_eq_zero.1 (Nat.le_zero.1 this) item m
    simp [e] at this
  · exact .refl s

/-- The end of a measurement job whose entry has left the list: its entry in the log takes the place of a job that was left (R73). -/
theorem measurementJobDone_keeps (j : Job) (d : Bytes) (s : State) : Keeps s (measurementJobDone j d s) := by
  have h : Keeps s (recordMeasurement j d s) := by
    unfold recordMeasurement
    split
    · exact ⟨rfl, rfl, rfl, rfl, rfl, fun l => l.append _ _ _ _ _ nofun nofun, fun l => { l with }, fun l => { l with }⟩
    · exact ⟨rfl, rfl, rfl, rfl, rfl, fun l => l.append _ _ _ _ _ nofun nofun, fun l => { l with }, fun l => { l with }⟩
  unfold measurementJobDone
  dsimp only
  generalize recordMeasurement j d s = t at h
  have k : Keeps s { t with gate := { t.gate with
      verdict := judge j d t.gate.verdict, jobsLeft := t.gate.jobsLeft - 1 } } :=
    Keeps.after (t := t) ⟨rfl, rfl, rfl, rfl, rfl, id, fun l => { l with }, fun l => ⟨l.measured, l.scanned, l.verified⟩⟩ h
  split
  · exact .after (measurementEnd_keeps _) k
  · exact k

theorem measurementJobDone_regular (j : Job) (d : Bytes) (s : State) (h : s.LogBounded → s.measureJobs < s.gate.jobsLeft) :
    Regular s (measurementJobDone j d s) := by
  refine (measurementJobDone_keeps j d s).regular fun jm l => ?_
  have hlt := h l
  obtain ⟨h1, h2, h3⟩ := l.measuring (by omega)
  have hr : ∃ m : Ism, recordMeasurement j d s = { s with ism := m } ∧ m.measurements = s.ism.measurements + 1 := by
    unfold recordMeasurement
    split <;> exact ⟨_, rfl, by rw [Ism.measurements, Ism.entriesOf_append]; rfl⟩
  obtain ⟨m, hm, hc⟩ := hr
  unfold measurementJobDone
  dsimp only
  rw [hm]
  have lt : ({ s with ism := m, gate := { s.gate with verdict := judge j d s.gate.verdict, jobsLeft := s.gate.jobsLeft - 1 } } :
      State).LogBounded := { l with
    jobs := by
      change s.measureJobs ≤ s.gate.jobsLeft - 1
      omega
    total := by
      have := l.total
      change m.measurements + (s.gate.jobsLeft - 1) ≤ 8
      omega
    measuring := fun _ => ⟨h1, h2, h3⟩
    selecting := fun k => absurd h3 k }
  split
  · next h0 =>
    have key : ∀ u : State, u.JobsMatch → u.LogBounded → u.gate.state = .measuring → u.Settled → (measurementEnd u).LogBounded :=
      fun u a b c e => (measurementEnd_regular u (by simp [State.held, c]) e).bounded a b
    exact key _ ⟨jm.measured, jm.scanned, jm.verified⟩ lt h1 ⟨h0, h3⟩
  · exact lt

/-! ## The scan -/

theorem roundDone_regular (s : State) : Regular s (roundDone s) :=
  ⟨rfl, rfl, rfl, rfl, rfl, id, fun l =>
    ⟨l.releaseCount, l.failures, saturating_le _ _, l.skips, l.badRun, l.overruns, l.violations, l.fires, l.uptime⟩,
    fun l => ⟨l.measured, fun _ hj => absurd hj List.not_mem_nil, l.verified⟩, fun _ l => { l with }⟩

theorem scanJobs_purpose {s : State} {j : Job} (h : j ∈ s.scanJobs) : j.purpose = .scan := by
  unfold State.scanJobs at h
  split at h
  · exact regionJobs_purpose h
  · cases h

theorem startRound_regular (s : State) : Regular s (startRound s) := by
  unfold startRound
  split
  · exact ⟨rfl, rfl, rfl, rfl, rfl, id, fun l =>
      ⟨l.releaseCount, l.failures, l.rounds, saturating_le _ _, l.badRun, l.overruns, l.violations, l.fires, l.uptime⟩,
      fun l => ⟨l.measured, l.scanned, l.verified⟩, fun _ l => { l with }⟩
  · split
    · exact roundDone_regular s
    · refine .after (pump_regular _) ?_
      exact ⟨rfl, rfl, rfl, rfl, rfl, id, fun l => { l with }, fun l => ⟨l.measured, fun _ hj => scanJobs_purpose hj, l.verified⟩,
        fun _ l => { l with }⟩

theorem scanExpiry_regular (s : State) : Regular s (scanExpiry s) := .after (startRound_regular _) (.plain rfl)

theorem scanMismatch_regular (j : Job) (first : Bool) (s : State) : Regular s (scanMismatch j first s) := by
  have h : Regular s { s with gate := { s.gate with
      scanRound := s.gate.scanRound.map fun round => { round with mismatched := true }
      scanRecord := { s.gate.scanRecord with lastMismatch := some ⟨j.index, s.gate.releaseCount, s.second⟩ } } } := by
    refine ⟨rfl, rfl, rfl, rfl, rfl, id, fun l => { l with }, fun l => ⟨l.measured, ?_, l.verified⟩, fun _ l => { l with }⟩
    have k := l.scanned
    revert k
    unfold BootGate.unplacedScans
    cases s.gate.scanRound <;> exact id
  unfold scanMismatch
  dsimp only
  split
  · exact .after (raise_regular _ _) h
  · exact h

theorem countScanJob_regular (s : State) : Regular s (countScanJob s) := by
  unfold countScanJob
  split
  · next round h =>
    split
    · exact roundDone_regular s
    · refine ⟨rfl, rfl, rfl, rfl, rfl, id, fun l => { l with }, fun l => ⟨l.measured, ?_, l.verified⟩, fun _ l => { l with }⟩
      have k := l.scanned
      unfold BootGate.unplacedScans at k
      rw [h] at k
      exact k
  · exact .refl s

theorem scanJobDone_regular (j : Job) (d : Bytes) (s : State) : Regular s (scanJobDone j d s) := by
  unfold scanJobDone
  split
  · exact countScanJob_regular s
  · have h : ∀ first : Bool, Regular s (countScanJob (scanMismatch j first s)) := fun first =>
      .after (countScanJob_regular _) (scanMismatch_regular j first s)
    have k : ∀ first : Bool, Regular s (if first = true then fire .scanMismatch 0 (countScanJob (scanMismatch j first s))
        else countScanJob (scanMismatch j first s)) := fun first => by
      split
      · exact .after (fire_regular _ _ _) (h _)
      · exact h _
    exact k _

/-! ## Image Acceptance -/

/-- A change of the verification record that leaves its manifest. -/
theorem updateVerification_regular (f : Verification → Verification) (s : State)
    (h : ∀ v, (f v).manifest = v.manifest := by exact fun _ => rfl) : Regular s (updateVerification f s) :=
  .plain (by
    cases hv : s.image.verification <;> simp [State.core, updateVerification, hv, h] <;> rfl)

/-- A manifest of at most 8 segments joins the verification record. -/
theorem withManifest_regular (m : Manifest) (h : m.segments.length ≤ 8) (s : State) :
    Regular s (updateVerification (fun v => { v with manifest := some m }) s) :=
  ⟨rfl, rfl, rfl, rfl, rfl, id, fun l => { l with }, fun l => ⟨l.measured, l.scanned, l.verified⟩, fun _ l => { l with
    manifest := fun x k => by
      cases hv : s.image.verification <;> simp [updateVerification, hv] at k
      rw [← k]
      exact h }⟩

theorem placeImageJob_regular {j : Job} (hj : j.purpose = .imageVerify) (s : State) : Regular s (placeImageJob j s) :=
  .after (pump_regular _) (.image rfl (fun _ hk => Option.some.inj hk ▸ hj) fun _ h => h)

/-- A verification is opened, without a manifest. -/
theorem openVerification_regular (v : Verification) (h : v.manifest = none) (s : State) :
    Regular s { s with image := { s.image with verification := some v } } :=
  ⟨rfl, rfl, rfl, rfl, rfl, id, fun l => { l with }, fun l => ⟨l.measured, l.scanned, l.verified⟩, fun _ l => { l with
    manifest := fun x k => by simp [h] at k }⟩

theorem acceptVerification_regular (i : Nat) (s : State) : Regular s (acceptVerification i s) :=
  .after (answer_regular _ _ _) (.after (placeImageJob_regular rfl _) (openVerification_regular _ rfl s))

/-- The layout check passes a manifest of at most 8 segments (R99). -/
theorem layoutHolds_segments {bankSize : Nat} {block : Bytes} {m : Manifest} (h : layoutHolds bankSize block m = true) :
    m.segments.length ≤ 8 := by
  simp only [layoutHolds, Bool.and_eq_true, decide_eq_true_eq] at h
  omega

theorem manifestDone_regular (block : Bytes) (d : Option Bytes) (s : State) : Regular s (manifestDone block d s) := by
  unfold manifestDone
  split
  · exact .refl s
  · exact reject_regular _ _
  · dsimp only
    split
    · have h := withManifest_regular _ (layoutHolds_segments ‹_›) s
      split
      · exact .after (reject_regular _ _) h
      · exact .after (Regular.plain (s := updateVerification (fun v => { v with phase := .signature }) _) rfl)
          (.after (updateVerification_regular _ _) h)
    · exact reject_regular _ _

theorem acceptManifest_regular (m : Manifest) (s : State) : Regular s (acceptManifest m s) := by
  unfold acceptManifest
  dsimp only
  split
  · exact .after (placeImageJob_regular rfl _) (updateVerification_regular _ _)
  · exact updateVerification_regular _ _

theorem verdictDone_regular (valid : Bool) (s : State) : Regular s (verdictDone valid s) := by
  unfold verdictDone
  split
  · exact .refl s
  · dsimp only
    split
    · exact reject_regular _ _
    · split
      · exact reject_regular _ _
      · split
        · exact reject_regular _ _
        · exact acceptManifest_regular _ _

/-- A candidate set has no more regions than its manifest has segments (R103). -/
theorem candidateSet_length (base : Nat) (segments : List Segment) : (candidateSet base segments).length ≤ segments.length := by
  simp only [candidateSet, List.length_map]
  exact List.length_filter_le _ _

theorem completeVerification_regular (m : Manifest) (s : State) (h : s.LogBounded → m.segments.length ≤ 8) :
    Regular s (completeVerification m s) := by
  have r := updateVerification_regular (fun v => { v with deadline := none }) s
  have k : ∀ op a, Keeps s (State.handOver op a (updateVerification (fun v => { v with deadline := none }) s)) :=
    fun op a => .after (handOver_keeps op a _) r.keeps
  refine (k _ _).bounded fun l => .after (handOver_regular _ _ _ fun _ => ?_) r
  intro regions e
  simp only [State.verifiedRecord, Staged.candidate] at e
  split at e
  · rw [← Option.some.inj e]
    exact Nat.le_trans (candidateSet_length _ _) (h l)
  · cases e

theorem segmentMatched_regular (v : Verification) (m : Manifest) (s : State)
    (h : ∀ t : State, t.LogBounded → t.image.verification.bind (·.manifest) = s.image.verification.bind (·.manifest) →
      m.segments.length ≤ 8) : Regular s (segmentMatched v m s) := by
  unfold segmentMatched
  dsimp only
  split
  · exact .after (placeImageJob_regular rfl _) (.after (updateVerification_regular _ _) (updateVerification_regular _ _))
  · refine .after (completeVerification_regular _ _ fun l => h _ l ?_) (updateVerification_regular _ _)
    simp only [updateVerification]
    cases s.image.verification <;> rfl

theorem segmentDone_regular (j : Job) (d : Bytes) (s : State) : Regular s (segmentDone j d s) := by
  unfold segmentDone
  split
  · exact .refl s
  · next v hv =>
    split
    · exact .refl s
    · next m hm =>
      split
      · exact segmentMatched_regular _ _ _ fun t l e => l.manifest m (by rw [e, hv]; exact hm)
      · exact reject_regular _ _

/-! ## The end of a job and a burst -/

theorem deliver_regular (j : Job) (block : Bytes) (d : Option Bytes) (s : State)
    (h : j.purpose = .bootMeasure → s.LogBounded → s.measureJobs < s.gate.jobsLeft) : Regular s (deliver j block d s) := by
  unfold deliver
  split
  · exact measurementJobDone_regular _ _ _ (h ‹_›)
  · exact scanJobDone_regular _ _ _
  · split
    · exact manifestDone_regular _ _ _
    · split
      · exact segmentDone_regular _ _ _
      · exact .refl s
  · exact .refl s

theorem deliver_keeps (j : Job) (block : Bytes) (d : Option Bytes) (s : State) : Keeps s (deliver j block d s) := by
  by_cases h : j.purpose = .bootMeasure
  · unfold deliver
    split
    · exact measurementJobDone_keeps _ _ _
    · exact (scanJobDone_regular _ _ _).keeps
    · rename_i e; rw [h] at e; cases e
    · exact .refl s
  · exact (deliver_regular j block d s fun e => absurd e h).keeps

/-- The job in progress has ended. -/
theorem endJob_regular (j : Job) (d : Option Bytes) (s : State) (hj : s.reader.current = some j) : Regular s (endJob j d s) := by
  refine Keeps.bounded (.after (pump_regular _).keeps (.after (deliver_keeps _ _ _ _) (dropCurrent_regular s).keeps)) fun l => ?_
  refine .after (pump_regular _) (.after (deliver_regular _ _ _ _ fun hp _ => ?_) (dropCurrent_regular s))
  have := l.jobs
  simp only [State.measureJobs, FlashReader.entries, hj, Option.toList, List.countP_cons, hp, beq_self_eq_true,
    if_true, List.countP_append, List.cons_append] at this
  simp only [State.measureJobs, dropCurrent, FlashReader.entries, Option.toList, List.nil_append, List.countP_append]
  omega

theorem endJobIfDone_regular (s : State) : Regular s (endJobIfDone s) := by
  unfold endJobIfDone
  split
  · next j hj =>
    split
    · exact .refl s
    · split
      · exact endJob_regular _ _ _ hj
      · split
        · exact endJob_regular _ _ _ hj
        · exact .refl s
  · exact .refl s

theorem feedReader_regular (first last : Bool) (b : Bytes) (s : State) : Regular s (feedReader first last b s) :=
  .plain (by simp [State.core, feedReader, State.measureJobs])

theorem manifestBurst_regular (j : Job) (b : Bytes) (s : State) : Regular s (manifestBurst j b s) := by
  unfold manifestBurst
  dsimp only
  split
  · split
    · exact .after (feedReader_regular _ _ _ _) (.plain rfl)
    · exact .plain rfl
  · exact .plain rfl

/-- The remaining length of the job in progress is lowered, and the port is free. -/
theorem countBurst_regular (n : Nat) (s : State) (j : Job) (hj : s.reader.current = some j) :
    Regular s
      { s with
        port := { s.port with side := .idle }
        reader := { s.reader with bursting := false, current := some { j with remaining := n } } } :=
  .plain (by simp [State.core, State.measureJobs, FlashReader.entries, hj, List.countP_cons])

theorem burstRead_regular (b : Bytes) (s : State) : Regular s (burstRead b s) := by
  unfold burstRead
  dsimp only
  split
  · exact .plain rfl
  · next j hj =>
    split
    · exact .after (pump_regular _) (.after (dropCurrent_regular _) (.plain rfl))
    · have h := countBurst_regular (j.remaining - b.length) s j hj
      refine .after (endJobIfDone_regular _) ?_
      split
      · exact .after (manifestBurst_regular _ _ _) h
      · exact .after (feedReader_regular _ _ _ _) h

/-! ## The link -/

theorem withVault_regular {serve : State → State} (h : ∀ s, Regular s (serve s)) (s : State) :
    Regular s (withVault serve s) := by
  unfold withVault
  split
  · exact .after (h _) (.plain rfl)
  · exact .plain rfl

theorem inService_regular (code : Req) (i : Nat) (p : Bytes) (s : State) : Regular s (inService code i p s) :=
  .trans (admitFrame_regular s) (.plain rfl)

theorem refuseFrame_regular (st : Status) (s : State) : Regular s (refuseFrame st s) := by
  unfold refuseFrame
  dsimp only
  split
  · exact .after (fire_regular _ _ _) (.after (answerAs_regular _ _ _ _) (raiseBadRun_regular s))
  · exact .after (answerAs_regular _ _ _ _) (raiseBadRun_regular s)

theorem admitted_regular {serve : Nat → Bytes → State → State} (h : ∀ i p s, Regular s (serve i p s)) (code : Req) (i : Nat)
    (p : Bytes) (s : State) : Regular s (admitted code serve i p s) := by
  unfold admitted
  dsimp only
  refine .after ?_ (inService_regular code i p s)
  split
  · exact refuse_regular _ _
  · split
    · exact withVault_regular (h i p) _
    · exact h _ _ _

theorem receive_regular {serve : Nat → Bytes → State → State} (h : ∀ i p s, Regular s (serve i p s)) (code : Req) (i : Byte)
    (p : Bytes) (s : State) : Regular s (receive code serve i p s) := by
  unfold receive
  dsimp only
  split
  · exact refuseFrame_regular _ _
  · refine .after ?_ (acceptFrame_regular s)
    split
    · exact answerAs_regular _ _ _ _
    · split
      · exact answerAs_regular _ _ _ _
      · exact admitted_regular h _ _ _ _

theorem overrun_regular (sent : Bytes) (s : State) : Regular s (overrun sent s) :=
  ⟨rfl, rfl, rfl, rfl, rfl, id, fun l =>
    ⟨l.releaseCount, l.failures, l.rounds, l.skips, l.badRun, saturating_le _ _, l.violations, l.fires, l.uptime⟩,
    fun l => ⟨l.measured, l.scanned, l.verified⟩, fun _ l => { l with }⟩

theorem frameArrives_regular {read : State → State} (h : ∀ s, Regular s (read s)) (n : Nat) (s : State) :
    Regular s (frameArrives n read s) := by
  unfold frameArrives
  split
  · exact sendsHeld_regular _ _
  · split
    · exact .after (sendsBusy_regular _ _) (h s)
    · exact overrun_regular _ _

/-- A request command has a regular effect when its service has. -/
theorem request_regular {serve : Nat → Bytes → State → State} (h : ∀ i p s, Regular s (serve i p s)) (code : Req) (i : Byte)
    (p : Bytes) (s : State) : Regular s (request code serve i p s) :=
  frameArrives_regular (receive_regular h code i p) _ s

theorem receiveBad_regular (frame : Bytes) (s : State) : Regular s (receiveBad frame s) := by
  unfold receiveBad
  split
  · exact .after (answerAs_regular _ _ _ _) (acceptFrame_regular s)
  · exact refuseFrame_regular _ _
  · exact .refl s

theorem timeOut_regular (r : Bytes) (s : State) : Regular s (timeOut r s) := by
  have h : Regular s (sendsBusy r.length (s.raiseBadRun.raise .linkError)) :=
    .trans (raiseBadRun_regular s) (.plain rfl)
  unfold timeOut
  dsimp only
  split
  · exact .after (fire_regular _ _ _) h
  · exact h

theorem takeReply_regular (s : State) : Regular s (takeReply s) := by
  unfold takeReply
  dsimp only
  split
  · next h => exact .after (startOfMeasurement_settled _ _ fun l => l.running (l.reboot h)) (.plain rfl)
  · exact .plain rfl

theorem poll_regular (n : Nat) (b : Began) (s : State) : Regular s (poll n b s) := by
  unfold poll
  split
  · dsimp only
    split
    · exact .after (takeReply_regular _) (sends_regular _ _)
    · exact sends_regular _ _
  · exact .refl s

theorem ignore_regular (r : Bytes) (b : Began) (s : State) : Regular s (ignore r b s) := by
  unfold ignore
  split
  · exact sends_regular _ _
  · exact .refl s

theorem overrunFrame_regular (f : Bytes) (b : Began) (s : State) : Regular s (overrunFrame f b s) := by
  unfold overrunFrame
  split
  · exact overrun_regular _ s
  · exact .refl s

/-! ## The Key Table -/

/-- A write held back that is not a trial's (R144). -/
theorem holdBack_regular (op : StoreOp) (a : After) (s : State) (ha : a ≠ .trialSelected) :
    Regular s { s with keys := { s.keys with held := some ⟨op, a⟩ } } :=
  ⟨rfl, rfl, rfl, rfl, rfl, id, fun l => { l with }, fun l => ⟨l.measured, l.scanned, l.verified⟩, fun _ l => { l with
    heldBack := fun item e => by rw [← Option.some.inj e]; exact ha }⟩

theorem handSlot_regular (c : SlotClass) (op : StoreOp) (a : After) (s : State) (ho : op.FewRegions) (ha : a ≠ .trialSelected) :
    Regular s (handSlot c op a s) := by
  unfold handSlot
  split
  · exact holdBack_regular _ _ _ ha
  · exact handOver_regular _ _ _ (fun _ => ho) ha

theorem writeSlot_regular (i : Place) (op : StoreOp) (a : After) (s : State) (ho : op.FewRegions) (ha : a ≠ .trialSelected) :
    Regular s (writeSlot i op a s) := by
  unfold writeSlot
  exact served_regular (Checked.gives_bind fun _ _ => Checked.gives_bind fun _ _ =>
    Checked.gives_pure (handSlot_regular _ _ _ _ ho ha))

theorem countUse_regular (i : Place) (r : Bytes) (rep : Bool) (s : State) : Regular s (countUse i r rep s) :=
  writeSlot_regular _ _ _ _ trivial nofun

theorem createSlot_regular (i : Nat) (k : KeySlot) (a : After) (s : State) (ha : a ≠ .trialSelected) :
    Regular s (createSlot i k a s) := by
  unfold createSlot
  split
  · exact holdBack_regular _ _ _ ha
  · split
    · exact refuse_regular _ _
    · exact handOver_regular _ _ _ (fun _ => trivial) ha

theorem placeSign_regular (i : Place) (d : Bytes) (sv : Service) (s : State) : Regular s (placeSign i d sv s) := by
  unfold placeSign
  exact served_regular (Checked.gives_bind fun _ _ => Checked.gives_bind fun _ _ => Checked.gives_pure (.plain rfl))

theorem materialGenerated_regular (s : State) : Regular s (materialGenerated s) := by
  unfold materialGenerated
  split
  · exact .after (createSlot_regular _ _ _ _ nofun) (.plain rfl)
  · exact .refl s

/-! ## The vault -/

theorem consume_regular (needed : Bool) (s : State) : Regular s (consume needed s) := by
  unfold consume
  split
  · exact closeWindow_regular s
  · exact .refl s

theorem beginVerifier_regular (l p : Bytes) (sv : Service) (s : State) : Regular s (beginVerifier l p sv s) :=
  beginDigest_regular _ _ _ s

theorem beginDecay_regular (i : Nat) (s : State) : Regular s (beginDecay i s) := .after (handOver_regular _ _ _) (.plain rfl)
theorem beginReset_regular (r : Bool) (s : State) : Regular s (beginReset r s) := .after (handOver_regular _ _ _) (.plain rfl)

theorem charge_regular (i : Nat) (c : Credential) (p : Bytes) (n : Option Bytes) (s : State) :
    Regular s (charge i c p n s) := by
  unfold charge
  split
  · exact answer_regular _ _ _
  · exact .after (handOver_regular _ _ _) (consume_regular _ _)

theorem writeEnrolled_regular (f : CredForm) (v : Bytes) (s : State) : Regular s (writeEnrolled f v s) :=
  served_regular (Checked.gives_bind fun _ _ => Checked.gives_pure (handOver_regular _ _ _))

theorem writeProvisioned_regular (f : CredForm) (v : Bytes) (s : State) : Regular s (writeProvisioned f v s) :=
  served_regular (Checked.gives_bind fun _ _ => Checked.gives_pure (handOver_regular _ _ _))

end Sys2Proof.Machine
end

