-- ==== Sys2Proof/Laws/Bounded.lean ====
section
/-! SUPPORT. What bounds the log, at the end of a write: the sets that a write puts into the records, and the item that leaves the store (R36, R70,
R182). Every other effect is in Regular.lean. -/

namespace Sys2Proof.Machine

/-- A write of at most 8 regions keeps every set at 8 (R92, R103, R112, R188). -/
theorem Records.FewRegions.written {r : Records} {op : StoreOp} (h : r.FewRegions) (ho : op.FewRegions) : (r.written op).FewRegions := by
  have same : ∀ {x : Records}, x.goldenA = r.goldenA → x.goldenB = r.goldenB → x.staged.candidate = r.staged.candidate → x.FewRegions :=
    fun a b c => ⟨a ▸ h.goldenA, b ▸ h.goldenB, c ▸ h.candidate⟩
  cases op <;> simp only [Records.written]
  all_goals first
    | exact same rfl rfl rfl
    | (unfold Records.updateSlot; split <;> exact same rfl rfl rfl)
    | (unfold Records.updateCred; split <;> exact same rfl rfl rfl)
    | (unfold Records.emptySlot; split <;> exact same rfl rfl rfl)
    | (unfold Records.removeCred; split <;> exact same rfl rfl rfl)
    | (split <;> exact same rfl rfl rfl)
    | exact ⟨h.goldenA, h.goldenB, ho⟩
    | exact ⟨ho, h.goldenB, h.candidate⟩
    | exact ⟨h.goldenA, h.goldenB, h.candidate⟩
    | skip
  case arm t => unfold Records.arm; split <;> first | exact h | (exact same rfl rfl (by simp_all [Staged.candidate]))
  case disarm => unfold Records.disarm; split <;> first | exact h | (exact same rfl rfl (by simp_all [Staged.candidate]))
  case trialTry => unfold Records.trialTry; split <;> first | exact h | (exact same rfl rfl (by simp_all [Staged.candidate]))
  case confirmBoot =>
    unfold Records.confirmBoot
    split
    · rename_i f regions e
      have hc := h.candidate regions (by simp [e, Staged.candidate])
      cases ha : r.selector.active <;> simp only [Records.withGolden, Bank.other, Records.withCounter, Records.golden]
      · exact ⟨h.goldenA, hc, nofun⟩
      · exact ⟨hc, h.goldenB, nofun⟩
    · exact h
  case confirmLine => unfold Records.confirmLine; split <;> first | exact h | exact ⟨h.goldenA, h.goldenB, nofun⟩

/-- The same of a write whose checks are tested again (log entry 46). -/
theorem Records.FewRegions.apply {r : Records} {op : StoreOp} (h : r.FewRegions) (ho : op.FewRegions) : (r.apply op).FewRegions := by
  unfold Records.apply
  split
  · exact h.written ho
  · exact h

/-- The item being made leaves the store, and the records take sets of at most 8 regions: what bounds the log stands, and where the item is a
trial's write, its bank may be selected (R70). -/
theorem State.LogBounded.itemEnds {s : State} {item : StoreItem} (l : s.LogBounded) (hm : s.store.making = some item) {r : Records}
    (hr : r.FewRegions) :
    ({ s with kept := r, store := { s.store with making := none } } : State).LogBounded ∧
      (item.after = .trialSelected → ({ s with kept := r, store := { s.store with making := none } } : State).Selects) := by
  have hb : s.begun = item :: s.store.waiting := by simp [State.begun, hm]
  have ht : (s.store.waiting.countP fun i => i.after == .trialSelected) + (if item.after = .trialSelected then 1 else 0) ≤
      if s.gate.selection = .trialWrite then 1 else 0 := by
    have := l.trial
    rw [hb, List.countP_cons] at this
    simpa using this
  constructor
  · exact { l with
      trial := Nat.le_trans (Nat.le_add_right _ _) ht
      records := hr
      writes := fun i m => l.writes i (by rw [hb]; exact List.mem_cons_of_mem _ m) }
  · intro e
    rw [if_pos e] at ht
    have hsel : s.gate.selection = .trialWrite := Decidable.byContradiction fun c => by rw [if_neg c] at ht; omega
    rw [if_pos hsel] at ht
    refine ⟨by change s.gate.selection ≠ _; rw [hsel]; exact nofun, fun i m k => ?_⟩
    have h0 : (s.store.waiting.countP fun i => i.after == .trialSelected) = 0 := by omega
    have := List.countP_eq_zero.1 h0 i m
    simp [k] at this

end Sys2Proof.Machine
end

