-- ==== Sys2Proof/Laws/Requests.lean ====
section
/-! SUPPORT. A request from its frame to the state it leaves: the admission (R77, R170), and the three ways in which a service ends its event. -/

namespace Sys2Proof.Machine

/-! ## The admission changes the Boot Gate alone -/

@[simp] theorem admitFrame_kept (s : State) : (admitFrame s).kept = s.kept := rfl
@[simp] theorem admitFrame_store (s : State) : (admitFrame s).store = s.store := rfl
@[simp] theorem admitFrame_link (s : State) : (admitFrame s).link = s.link := rfl
@[simp] theorem admitFrame_ism (s : State) : (admitFrame s).ism = s.ism := rfl
@[simp] theorem admitFrame_keys (s : State) : (admitFrame s).keys = s.keys := rfl
@[simp] theorem admitFrame_engine (s : State) : (admitFrame s).engine = s.engine := rfl
@[simp] theorem admitFrame_digest (s : State) : (admitFrame s).digest = s.digest := rfl
@[simp] theorem admitFrame_reader (s : State) : (admitFrame s).reader = s.reader := rfl
@[simp] theorem admitFrame_port (s : State) : (admitFrame s).port = s.port := rfl
@[simp] theorem admitFrame_image (s : State) : (admitFrame s).image = s.image := rfl
@[simp] theorem admitFrame_vault (s : State) : (admitFrame s).vault = s.vault := rfl
@[simp] theorem admitFrame_biu (s : State) : (admitFrame s).biu = s.biu := rfl
@[simp] theorem admitFrame_reactions (s : State) : (admitFrame s).reactions = s.reactions := rfl
@[simp] theorem admitFrame_pins (s : State) : (admitFrame s).pins = s.pins := rfl
@[simp] theorem admitFrame_uptime (s : State) : (admitFrame s).uptime = s.uptime := rfl
@[simp] theorem admitFrame_powered (s : State) : (admitFrame s).powered = s.powered := rfl
@[simp] theorem admitFrame_draws (s : State) : (admitFrame s).draws = s.draws := rfl
@[simp] theorem admitFrame_pending (s : State) : (admitFrame s).pending = s.pending := rfl

/-! ## The state in which a request is served -/

@[simp] theorem inService_kept (code : Req) (i : Nat) (p : Bytes) (s : State) :
    (inService code i p s.acceptFrame).kept = s.kept := rfl
@[simp] theorem inService_store (code : Req) (i : Nat) (p : Bytes) (s : State) :
    (inService code i p s.acceptFrame).store = s.store := rfl
@[simp] theorem inService_ism (code : Req) (i : Nat) (p : Bytes) (s : State) :
    (inService code i p s.acceptFrame).ism = s.ism := rfl
@[simp] theorem inService_keys (code : Req) (i : Nat) (p : Bytes) (s : State) :
    (inService code i p s.acceptFrame).keys = s.keys := rfl
@[simp] theorem inService_engine (code : Req) (i : Nat) (p : Bytes) (s : State) :
    (inService code i p s.acceptFrame).engine = s.engine := rfl
@[simp] theorem inService_digest (code : Req) (i : Nat) (p : Bytes) (s : State) :
    (inService code i p s.acceptFrame).digest = s.digest := rfl
@[simp] theorem inService_reader (code : Req) (i : Nat) (p : Bytes) (s : State) :
    (inService code i p s.acceptFrame).reader = s.reader := rfl
@[simp] theorem inService_port (code : Req) (i : Nat) (p : Bytes) (s : State) :
    (inService code i p s.acceptFrame).port = s.port := rfl
@[simp] theorem inService_image (code : Req) (i : Nat) (p : Bytes) (s : State) :
    (inService code i p s.acceptFrame).image = s.image := rfl
@[simp] theorem inService_vault (code : Req) (i : Nat) (p : Bytes) (s : State) :
    (inService code i p s.acceptFrame).vault = s.vault := rfl
@[simp] theorem inService_biu (code : Req) (i : Nat) (p : Bytes) (s : State) :
    (inService code i p s.acceptFrame).biu = s.biu := rfl
@[simp] theorem inService_reactions (code : Req) (i : Nat) (p : Bytes) (s : State) :
    (inService code i p s.acceptFrame).reactions = s.reactions := rfl
@[simp] theorem inService_pins (code : Req) (i : Nat) (p : Bytes) (s : State) :
    (inService code i p s.acceptFrame).pins = s.pins := rfl
@[simp] theorem inService_uptime (code : Req) (i : Nat) (p : Bytes) (s : State) :
    (inService code i p s.acceptFrame).uptime = s.uptime := rfl
@[simp] theorem inService_powered (code : Req) (i : Nat) (p : Bytes) (s : State) :
    (inService code i p s.acceptFrame).powered = s.powered := rfl
@[simp] theorem inService_draws (code : Req) (i : Nat) (p : Bytes) (s : State) :
    (inService code i p s.acceptFrame).draws = s.draws := rfl
@[simp] theorem inService_pending (code : Req) (i : Nat) (p : Bytes) (s : State) :
    (inService code i p s.acceptFrame).pending = s.pending := rfl

@[simp] theorem inService_gate (code : Req) (i : Nat) (p : Bytes) (s : State) :
    (inService code i p s.acceptFrame).gate = s.admittedGate := rfl

@[simp] theorem inService_link (code : Req) (i : Nat) (p : Bytes) (s : State) :
    (inService code i p s.acceptFrame).link =
      { s.link with badRun := 0, state := .serving, request := some ⟨code, i, p⟩, service := .none } := rfl

/-! ## Step 6 reads the records alone -/

theorem checkRight_of_kept {s t : State} (h : t.kept = s.kept) (code : Req) (i : Nat) (p : Bytes) :
    checkRight code i p t = checkRight code i p s := by
  have hr : t.hasRight = s.hasRight := by
    funext a b
    simp only [State.hasRight, State.requester, h]
  simp only [checkRight, hr, h]

theorem enabled_of_admits {s : State} {i : Nat} (h : s.admits i = true) : s.enabled i = true := by
  unfold State.admits at h
  unfold State.enabled
  split at h <;> simp_all

/-- A request that needs no right passes step 6. -/
theorem checkRight_free {s : State} {code : Req} {i : Nat} {p : Bytes} (h1 : code ≠ .setParameter) (h2 : code.isFactory = false)
    (h3 : code.rights = []) : checkRight code i p s = .ok () := by
  simp [checkRight, h1, h2, h3, check]

/-- A request that needs one of some rights passes step 6 with one of them. -/
theorem checkRight_held {s : State} {code : Req} {i right : Nat} {p : Bytes} (h1 : code ≠ .setParameter)
    (h2 : code.isFactory = false) (h3 : right ∈ code.rights) (h4 : s.hasRight i right = true) :
    checkRight code i p s = .ok () := by
  have : code.rights.any (s.hasRight i) = true := List.any_eq_true.2 ⟨right, h3, h4⟩
  simp [checkRight, h1, h2, this, check]

/-- A factory request passes step 6 in MANUFACTURE (R184). -/
theorem checkRight_factory {s : State} {code : Req} {i : Nat} {p : Bytes} (h1 : code ≠ .setParameter) (h2 : code.isFactory = true)
    (h3 : s.kept.lifecycle = .manufacture) : checkRight code i p s = .ok () := by
  simp [checkRight, h1, h2, h3, check]

/-! ## From the frame to the service -/

theorem receive_admitted {s : State} {identity : Byte} {payload : Bytes} (h : s.Hears identity payload) (code : Req)
    (serve : Nat → Bytes → State → State) :
    receive code serve identity payload s = admitted code serve identity.toNat payload s.acceptFrame := by
  have he : s.acceptFrame.enabled identity.toNat = true := enabled_of_admits (s := s) h.admitted
  have ha : s.acceptFrame.admits identity.toNat = true := h.admitted
  have hl : ¬ 1024 < payload.length := Nat.not_lt.2 h.length
  simp [receive, hl, he, ha]

/-- A heard request that passes step 6 and does not need the vault: its event is that of its service. -/
theorem request_granted {s : State} {identity : Byte} {payload : Bytes} (h : s.Hears identity payload) {code : Req}
    (serve : Nat → Bytes → State → State) (hr : checkRight code identity.toNat payload s = .ok ())
    (hv : code.usesVault payload = false) :
    event true (request code serve identity payload) s =
      .next (sendsBusy (payload.length + 7)
        (serve identity.toNat payload (inService code identity.toNat payload s.acceptFrame))).settle := by
  have hc : checkRight code identity.toNat payload (inService code identity.toNat payload s.acceptFrame) = .ok () :=
    (checkRight_of_kept (inService_kept _ _ _ _) _ _ _).trans hr
  simp [event, request, frameArrives, h.powered, h.running, h.idle, receive_admitted h, admitted, hc, hv]

/-- A heard request that passes step 6 and finds the vault free: it is served holding the vault (R145). -/
theorem request_granted_vault {s : State} {identity : Byte} {payload : Bytes} (h : s.Hears identity payload) {code : Req}
    (serve : Nat → Bytes → State → State) (hr : checkRight code identity.toNat payload s = .ok ())
    (hv : code.usesVault payload = true) (hf : s.vault.free = true) :
    event true (request code serve identity payload) s =
      .next (sendsBusy (payload.length + 7)
        (serve identity.toNat payload
          { inService code identity.toNat payload s.acceptFrame with
            vault := { s.vault with holder := some .request } })).settle := by
  have hc : checkRight code identity.toNat payload (inService code identity.toNat payload s.acceptFrame) = .ok () :=
    (checkRight_of_kept (inService_kept _ _ _ _) _ _ _).trans hr
  simp [event, request, frameArrives, h.powered, h.running, h.idle, receive_admitted h, admitted, hc, hv, withVault, hf]

theorem byteOf_toNat (b : Byte) : byteOf b.toNat = b := by simp [byteOf]

/-- `t` is `s` with its request in service and nothing else changed. -/
structure Serving (s : State) (code : Req) (identity : Byte) (payload : Bytes) (t : State) : Prop extends Quiet s t where
  serves : t.Serves code identity payload
  store : t.store = s.store
  digest : t.digest = s.digest
  biu : t.biu = s.biu
  released : t.vault.releaseRequest = s.vault.releaseRequest

theorem inService_serving (s : State) (code : Req) (identity : Byte) (payload : Bytes) :
    Serving s code identity payload (inService code identity.toNat payload s.acceptFrame) :=
  { kept := rfl, keys := rfl, reader := rfl, readerContext := rfl, port := rfl, image := rfl, penalty := rfl, decay := rfl,
    reactions := rfl, overruns := rfl, badRun := rfl, uptime := rfl, powered := rfl, draws := rfl, pending := rfl, gate := rfl, ism := rfl,
    engine := rfl, biu := rfl, flags := rfl, mask := rfl, serves := ⟨rfl, rfl⟩, store := rfl, digest := rfl,
    released := rfl }

/-- A free vault that a request takes is free again when the request has released it (R145). -/
theorem released_of_free {v : VaultUnit} (h : v.free = true) :
    ({ v with holder := some .request } : VaultUnit).releaseRequest = v.releaseRequest := by
  obtain ⟨p, d, holder, waiting⟩ := v
  simp only [VaultUnit.free, Bool.and_eq_true, Option.isNone_iff_eq_none] at h
  simp [VaultUnit.releaseRequest, h.1]

theorem inService_serving_vault {s : State} (hf : s.vault.free = true) (code : Req) (identity : Byte) (payload : Bytes) :
    Serving s code identity payload
      { inService code identity.toNat payload s.acceptFrame with vault := { s.vault with holder := some .request } } :=
  { kept := rfl, keys := rfl, reader := rfl, readerContext := rfl, port := rfl, image := rfl, penalty := rfl, decay := rfl,
    reactions := rfl, overruns := rfl, badRun := rfl, uptime := rfl, powered := rfl, draws := rfl, pending := rfl, gate := rfl, ism := rfl,
    engine := rfl, biu := rfl, flags := rfl, mask := rfl, serves := ⟨rfl, rfl⟩, store := rfl, digest := rfl,
    released := released_of_free hf }

/-! ## The ends of a request's event -/

/-- The request in service answers to the identity of its frame (R170). -/
theorem Serving.asker {s t : State} {code : Req} {identity : Byte} {payload : Bytes} (h : Serving s code identity payload t) :
    t.asker = identity := by simp [State.asker, h.serves.request, byteOf_toNat]

/-- A service that answers has changed nothing more. -/
theorem Serving.replies {s t : State} {code : Req} {identity : Byte} {payload : Bytes} (h : Serving s code identity payload t)
    (n : Nat) (status : Status) (bytes : Bytes) :
    Replies s identity status bytes (sendsBusy n (answer status bytes t)).settle :=
  { kept := h.kept, keys := h.keys, reader := h.reader, readerContext := h.readerContext, port := h.port,
    image := h.image, penalty := h.penalty, decay := h.decay, reactions := h.reactions, overruns := h.overruns, badRun := h.badRun,
    uptime := h.uptime, powered := h.powered, draws := h.draws, pending := h.pending, gate := h.gate, ism := h.ism,
    engine := h.engine, flags := h.flags, mask := h.mask, store := h.store, biu := h.biu,
    answers := ⟨rfl, rfl, h.asker ▸ rfl⟩, digest := by rw [← h.digest]; rfl, vault := h.released }

/-- A heard request that fails step 6 is refused with its status (R170). -/
theorem request_denied {s : State} {identity : Byte} {payload : Bytes} (h : s.Hears identity payload) {code : Req} {status : Status}
    (serve : Nat → Bytes → State → State) (hr : checkRight code identity.toNat payload s = .error status) :
    ∃ t, event true (request code serve identity payload) s = .next t ∧ Replies s identity status [] t := by
  have hc : checkRight code identity.toNat payload (inService code identity.toNat payload s.acceptFrame) = .error status :=
    (checkRight_of_kept (inService_kept _ _ _ _) _ _ _).trans hr
  refine ⟨_, ?_, (inService_serving s code identity payload).replies (payload.length + 7) status []⟩
  simp [event, request, frameArrives, h.powered, h.running, h.idle, receive_admitted h, admitted, hc, refuse]

/-- A heard vault request that passes step 6 and finds the vault held, or work that waits for it, waits in its turn (R145). -/
theorem request_waits {s : State} {identity : Byte} {payload : Bytes} (h : s.Hears identity payload) {code : Req}
    (serve : Nat → Bytes → State → State) (hr : checkRight code identity.toNat payload s = .ok ())
    (hv : code.usesVault payload = true) (hf : s.vault.free = false) :
    ∃ t, event true (request code serve identity payload) s = .next t ∧ Waits s code identity payload t := by
  have hc : checkRight code identity.toNat payload (inService code identity.toNat payload s.acceptFrame) = .ok () :=
    (checkRight_of_kept (inService_kept _ _ _ _) _ _ _).trans hr
  refine ⟨(sendsBusy (payload.length + 7)
    { inService code identity.toNat payload s.acceptFrame with
      vault := { s.vault with waiting := s.vault.waiting ++ [.request] }
      link := { (inService code identity.toNat payload s.acceptFrame).link with service := .vaultWait } }).settle, ?_, ?_⟩
  · simp [event, request, frameArrives, h.powered, h.running, h.idle, receive_admitted h, admitted, hc, hv, withVault, hf]
  · exact
      { kept := rfl, keys := rfl, reader := rfl, readerContext := rfl, port := rfl, image := rfl, penalty := rfl, decay := rfl,
        reactions := rfl, overruns := rfl, badRun := rfl, uptime := rfl, powered := rfl, draws := rfl, pending := rfl, gate := rfl,
        ism := rfl, engine := rfl, biu := rfl, flags := rfl, mask := rfl, serves := ⟨rfl, rfl⟩, service := rfl, vault := rfl,
        store := rfl, digest := rfl }

/-- A service that hands a write over stays in service. -/
theorem Serving.hands {s t : State} {code : Req} {identity : Byte} {payload : Bytes} (h : Serving s code identity payload t)
    (n : Nat) (op : StoreOp) (after : After) :
    Hands s code identity payload op after s.biu (sendsBusy n (t.handOver op after)).settle :=
  { kept := h.kept, keys := h.keys, reader := h.reader, readerContext := h.readerContext, port := h.port,
    image := h.image, penalty := h.penalty, decay := h.decay, reactions := h.reactions, overruns := h.overruns, badRun := h.badRun,
    uptime := h.uptime, powered := h.powered, draws := h.draws, pending := h.pending, gate := h.gate, ism := h.ism,
    engine := h.engine, flags := h.flags, mask := h.mask, serves := ⟨h.serves.serving, h.serves.request⟩, biu := h.biu,
    store := by rw [← h.store]; rfl, digest := h.digest }

/-- The same with the presence window consumed. -/
theorem Serving.consumes {s t : State} {code : Req} {identity : Byte} {payload : Bytes} (h : Serving s code identity payload t)
    (n : Nat) (op : StoreOp) (after : After) :
    Hands s code identity payload op after s.biu.consumed (sendsBusy n ((closeWindow t).handOver op after)).settle :=
  { kept := h.kept, keys := h.keys, reader := h.reader, readerContext := h.readerContext, port := h.port,
    image := h.image, penalty := h.penalty, decay := h.decay, reactions := h.reactions, overruns := h.overruns, badRun := h.badRun,
    uptime := h.uptime, powered := h.powered, draws := h.draws, pending := h.pending, gate := h.gate, ism := h.ism,
    engine := h.engine, flags := h.flags, mask := h.mask, serves := ⟨h.serves.serving, h.serves.request⟩,
    biu := by rw [← h.biu]; rfl, store := by rw [← h.store]; rfl, digest := h.digest }

theorem beginLink_reader (k : Option Bytes) (b : Bytes) (d : DigestEngine) : (d.beginLink k b).reader = d.reader := by
  unfold DigestEngine.beginLink DigestEngine.takeBlock
  dsimp only
  split <;> rfl

/-- A service that digests stays in service. -/
theorem Serving.digests {s t : State} {code : Req} {identity : Byte} {payload : Bytes} (h : Serving s code identity payload t)
    (n : Nat) (key : Option Bytes) (bytes : Bytes) (service : Service) :
    Digests s code identity payload key bytes service s.biu (sendsBusy n (beginDigest key bytes service t)).settle :=
  { kept := h.kept, keys := h.keys, reader := h.reader, readerContext := (beginLink_reader key bytes t.digest).trans h.readerContext, port := h.port,
    image := h.image, penalty := h.penalty, decay := h.decay, reactions := h.reactions, overruns := h.overruns, badRun := h.badRun,
    uptime := h.uptime, powered := h.powered, draws := h.draws, pending := h.pending, gate := h.gate, ism := h.ism,
    engine := h.engine, flags := h.flags, mask := h.mask,
    serves := ⟨h.serves.serving, h.serves.request⟩, service := rfl, digest := by rw [← h.digest]; rfl,
    store := h.store, biu := h.biu }

/-- The same with the presence window consumed. -/
theorem Serving.digestsConsumed {s t : State} {code : Req} {identity : Byte} {payload : Bytes}
    (h : Serving s code identity payload t) (n : Nat) (key : Option Bytes) (bytes : Bytes) (service : Service) :
    Digests s code identity payload key bytes service s.biu.consumed
      (sendsBusy n (beginDigest key bytes service (closeWindow t))).settle :=
  { kept := h.kept, keys := h.keys, reader := h.reader, readerContext := (beginLink_reader key bytes t.digest).trans h.readerContext, port := h.port,
    image := h.image, penalty := h.penalty, decay := h.decay, reactions := h.reactions, overruns := h.overruns, badRun := h.badRun,
    uptime := h.uptime, powered := h.powered, draws := h.draws, pending := h.pending, gate := h.gate, ism := h.ism,
    engine := h.engine, flags := h.flags, mask := h.mask,
    serves := ⟨h.serves.serving, h.serves.request⟩, service := rfl, digest := by rw [← h.digest]; rfl,
    store := h.store, biu := by rw [← h.biu]; rfl }

end Sys2Proof.Machine
end

