-- ==== Sys2Proof/Laws/Checks.lean ====
section
/-! SUPPORT. The checks of a service, one by one: what a check that holds or fails does, and what the readings of a payload give. -/

namespace Sys2Proof.Machine

/-! ## Checks in turn -/

@[simp] theorem Checked.bind_ok {α β : Type} (a : α) (f : α → Checked β) : (Except.ok a : Checked α) >>= f = f a := rfl
@[simp] theorem Checked.bind_error {α β : Type} (e : Status) (f : α → Checked β) :
    (Except.error e : Checked α) >>= f = .error e := rfl
@[simp] theorem Checked.pure_eq {α : Type} (a : α) : (pure a : Checked α) = .ok a := rfl
@[simp] theorem check_true (e : Status) : check true e = .ok () := rfl
@[simp] theorem check_false (e : Status) : check false e = .error e := rfl
@[simp] theorem layout_some {α : Type} (a : α) : layout (some a) = .ok a := rfl
@[simp] theorem layout_none {α : Type} : layout (none : Option α) = .error .badArgument := rfl
@[simp] theorem present_some {α : Type} (a : α) (e : Status) : present (some a) e = .ok a := rfl
@[simp] theorem present_none {α : Type} (e : Status) : present (none : Option α) e = .error e := rfl
@[simp] theorem served_ok (t s : State) : served (.ok t) s = t := rfl
@[simp] theorem served_error (e : Status) (s : State) : served (.error e) s = refuse e s := rfl
@[simp] theorem answered_ok (b : Bytes) (s : State) : answered (.ok b) s = answer .ok b s := rfl
@[simp] theorem answered_error (e : Status) (s : State) : answered (.error e) s = refuse e s := rfl

/-! ## Numbers in payloads -/

theorem number_le16 (n : Nat) (h : n < 65536) : number (le16 n) = n := by
  simp [number, le16, byteOf]
  omega

@[simp] theorem length_le16 (n : Nat) : (le16 n).length = 2 := rfl
@[simp] theorem length_le32 (n : Nat) : (le32 n).length = 4 := rfl

theorem takeNumber_le16 (n : Nat) (rest : Bytes) (h : n < 65536) : takeNumber 2 (le16 n ++ rest) = some (n, rest) := by
  have ht : (le16 n ++ rest).take 2 = le16 n := rfl
  have hd : (le16 n ++ rest).drop 2 = rest := rfl
  simp [takeNumber, takeBytes, ht, hd, number_le16 n h]

@[simp] theorem takeNumber_one (b : Byte) (rest : Bytes) : takeNumber 1 (b :: rest) = some (b.toNat, rest) := by
  simp [takeNumber, takeBytes, number]

@[simp] theorem readByte_one (b : Byte) : readByte [b] = some b := rfl
@[simp] theorem atEnd_nil : atEnd [] = some () := rfl

theorem readMask_le16 (m : BitVec 12) : readMask (le16 m.toNat) = some m := by
  have h : m.toNat < 4096 := m.isLt
  unfold readMask
  rw [number_le16 _ (by omega), if_pos ⟨rfl, h⟩]
  simp

theorem readMask_refused (p : Bytes) (h : p.length ≠ 2 ∨ 4096 ≤ number p) : readMask p = none := by
  unfold readMask
  rw [if_neg]
  rintro ⟨a, b⟩
  omega

/-! ## What the admission leaves of the Boot Gate -/

theorem admittedGate_scan (s : State) : s.admittedGate.scanTimer = s.gate.scanTimer ∧
    s.admittedGate.scanRound = s.gate.scanRound ∧ s.admittedGate.scanRecord = s.gate.scanRecord := by
  unfold State.admittedGate
  split <;> exact ⟨rfl, rfl, rfl⟩

theorem admittedGate_boot (s : State) : s.admittedGate.verdict = s.gate.verdict ∧
    s.admittedGate.selected = s.gate.selected ∧ s.admittedGate.booted = s.gate.booted ∧
    s.admittedGate.rebootPending = s.gate.rebootPending ∧ s.admittedGate.recovery = s.gate.recovery ∧
    s.admittedGate.audit = s.gate.audit := by
  unfold State.admittedGate
  split <;> exact ⟨rfl, rfl, rfl, rfl, rfl, rfl⟩

/-! ## The Key Table's checks -/

theorem resetBegun_of_store {s t : State} (h : t.store = s.store) : t.resetBegun = s.resetBegun := by
  simp [State.resetBegun, State.begun, h]

theorem hasRight_of_kept {s t : State} (h : t.kept = s.kept) (i right : Nat) : t.hasRight i right = s.hasRight i right := by
  simp [State.hasRight, State.requester, h]

/-- A requester with the right of a class passes step 6 of the requests that manage slots (R2). -/
theorem checkRight_class {s : State} {code : Req} {i : Nat} {p : Bytes} {c : SlotClass} (h1 : code ≠ .setParameter)
    (h2 : code.isFactory = false) (h3 : code.rights = [rightAdmin, rightOwner]) (h4 : s.hasRight i c.right = true) :
    checkRight code i p s = .ok () := by
  refine checkRight_held h1 h2 (right := c.right) ?_ h4
  rw [h3]
  cases c <;> decide

theorem checkCreate_ok {s t : State} (hk : t.kept = s.kept) {i identity : Nat} {p : Policy} {c : SlotClass}
    (h : s.Creatable i identity p c) : checkCreate i identity p t = .ok c := by
  have hc : creatableClass p.classCode = .ok c := by
    have := h.class_
    unfold creatableClass
    rw [h.named]
    cases c <;> simp_all
  simp [checkCreate, h.index.1, h.index.2, hc, hasRight_of_kept hk, h.right, h.policy, hk, h.empty, h.label]

theorem checkUse_ok {s t : State} (hk : t.kept = s.kept) (hm : t.ism = s.ism) (hs : t.keys = s.keys) {i identity : Nat}
    {kind : KeyKind} {usage : Nat} {k : KeySlot} (h : s.Usable i identity kind usage k) :
    checkUse i identity kind usage t = .ok k := by
  have hf : t.suspended i = false := by
    have := h.free
    simpa [State.suspended, hs] using this
  simp [checkUse, findSlot, h.index, hk, h.slot, checkKind, h.kind, checkActive, h.active, checkUsage, h.usage,
    checkAnswers, h.answers, checkSuspension, hf, checkBinding, hm, h.binding]

theorem checkManaged_ok {s t : State} (hk : t.kept = s.kept) {i identity : Nat} {k : KeySlot}
    (h : s.Managed i identity k) : checkManaged i identity t = .ok k := by
  simp [checkManaged, findSlot, h.index.1, h.index.2, hk, h.slot, hasRight_of_kept hk, h.right]

/-- A write to a slot is handed over where no owner reset is begun, or the slot's class is not OWNER (R144). -/
theorem handSlot_open {t : State} {c : SlotClass} (h : c = .owner → t.resetBegun = false) (op : StoreOp) (after : After) :
    handSlot c op after t = t.handOver op after := by
  unfold handSlot
  rw [if_neg]
  rintro ⟨hc, hr⟩
  rw [h hc] at hr
  cases hr

/-- A creating write is handed over where the class is not OWNER, or the vault is CLAIMED and no owner reset is begun (R17, R144). -/
theorem createSlot_open {t : State} {i : Nat} {k : KeySlot}
    (h : k.slotClass = .owner → t.kept.vault.claimed = true ∧ t.resetBegun = false) (after : After) :
    createSlot i k after t = t.handOver (.slotPut i k) after := by
  unfold createSlot
  by_cases hc : k.slotClass = .owner
  · obtain ⟨h1, h2⟩ := h hc
    simp [h1, h2, Records.mayHold]
  · simp [hc, Records.mayHold]

/-- A counted use of an ACTIVE slot is handed over where no owner reset is begun, or the slot's class is not OWNER (R15, R119, R144). -/
theorem countUse_open {t : State} {p : Place} {k : KeySlot} (hs : t.kept.slotAt p = some k) (ha : k.state = .active)
    (h : k.slotClass = .owner → t.resetBegun = false) (result : Bytes) (report : Bool) :
    countUse p result report t = t.handOver (.slotCount p) (.replyCounted p.index result report) := by
  simp [countUse, writeSlot, hs, Records.recheckSlot, checkActive, ha, handSlot_open h]

/-- A use of a slot that has become EMPTY is answered SLOT_EMPTY, whatever has been created there since (R15, R119, R120, log entry 53). -/
theorem countUse_empty {t : State} {p : Place} (hs : t.kept.slotAt p = none) (result : Bytes) (report : Bool) :
    countUse p result report t = refuse .slotEmpty t := by
  simp [countUse, writeSlot, hs]

/-- A use of a slot found RETIRED is answered WRONG_STATE (R5, log entry 38). -/
theorem countUse_retired {t : State} {p : Place} {k : KeySlot} (hs : t.kept.slotAt p = some k) (hr : k.state = .retired)
    (result : Bytes) (report : Bool) : countUse p result report t = refuse .wrongState t := by
  simp [countUse, writeSlot, hs, Records.recheckSlot, checkActive, hr, check]

/-- A SIGN operation of an ACTIVE slot is placed with the slot's private key (R14, R118). -/
theorem placeSign_active {t : State} {p : Place} {k : KeySlot} (hs : t.kept.slotAt p = some k) (ha : k.state = .active)
    (digest : Bytes) (service : Service) :
    placeSign p digest service t =
      { t with engine := t.engine ++ [.sign p.index k.material.privateBytes digest], link := { t.link with service := service } } := by
  simp [placeSign, hs, checkActive, ha]

/-! ## The check that fails first -/

@[simp] theorem firstFailure_nil : firstFailure [] = none := rfl

theorem firstFailure_cons (holds : Bool) (status : Status) (rest : List (Bool × Status)) :
    firstFailure ((holds, status) :: rest) = if holds then firstFailure rest else some status := by
  cases holds <;> rfl

theorem check_bind {α : Type} (holds : Bool) (status : Status) (f : Unit → Checked α) :
    (check holds status >>= f) = if holds then f () else .error status := by
  cases holds <;> rfl

theorem findSlot_bind {α : Type} (s : State) (i : Nat) (f : KeySlot → Checked α) :
    (findSlot i s >>= f) =
      if 23 < i then .error .badArgument
      else match s.kept.slot i with
        | none => .error .slotEmpty
        | some k => f k := by
  unfold findSlot
  by_cases h : i ≤ 23
  · simp only [h, decide_true, check_true, Checked.bind_ok, show ¬ 23 < i by omega, if_false]
    cases s.kept.slot i <;> rfl
  · simp [h, show 23 < i by omega]

/-- Checks on a slot answer with the first that fails. -/
theorem findSlot_fails {α : Type} {s : State} {i : Nat} {checks : KeySlot → List (Bool × Status)} {status : Status}
    (h : s.failureOnSlot i checks = some status) (f : KeySlot → Checked α)
    (hf : ∀ k, s.kept.slot i = some k → firstFailure (checks k) = some status → f k = .error status) :
    (findSlot i s >>= f) = .error status := by
  rw [findSlot_bind]
  unfold State.failureOnSlot at h
  by_cases hi : 23 < i
  · rw [if_pos hi] at h ⊢
    exact congrArg Except.error (Option.some.inj h)
  · rw [if_neg hi] at h ⊢
    cases e : s.kept.slot i with
    | none =>
      rw [e] at h
      exact congrArg Except.error (Option.some.inj h)
    | some k =>
      rw [e] at h
      exact hf k e h

/-- Checks on a slot that do not fail find it. -/
theorem failureOnSlot_none {s : State} {i : Nat} {checks : KeySlot → List (Bool × Status)} (h : s.failureOnSlot i checks = none) :
    ∃ k, i ≤ 23 ∧ s.kept.slot i = some k ∧ firstFailure (checks k) = none := by
  unfold State.failureOnSlot at h
  split at h
  · cases h
  · split at h
    · cases h
    · exact ⟨_, by omega, ‹_›, h⟩

/-- A use answers with the first check of R10 that fails. -/
theorem checkUse_fails {s : State} {i identity : Nat} {kind : KeyKind} {usage : Nat} {status : Status}
    (h : s.slotFailure i identity ⟨[kind], true, some usage, true, true⟩ = some status) :
    checkUse i identity kind usage s = .error status := by
  unfold checkUse
  refine findSlot_fails h _ fun k _ hk => ?_
  simp only [checkKind, checkActive, checkUsage, checkAnswers, checkSuspension, checkBinding, check_bind, firstFailure_cons,
    firstFailure_nil, Bool.not_true, Bool.false_or, Option.all_some] at hk ⊢
  repeat' split at hk
  all_goals simp_all

/-- A use of which no check of R10 fails finds a slot that can be used. -/
theorem checkUse_passes {s : State} {i identity : Nat} {kind : KeyKind} {usage : Nat}
    (h : s.slotFailure i identity ⟨[kind], true, some usage, true, true⟩ = none) :
    ∃ k, s.Usable i identity kind usage k := by
  obtain ⟨k, hi, hk, hc⟩ := failureOnSlot_none h
  simp only [firstFailure_cons, firstFailure_nil, Bool.not_true, Bool.false_or, Option.all_some] at hc
  repeat' split at hc
  all_goals first | (exfalso; simp at hc; done) | skip
  exact ⟨k, hi, hk, by simp_all, by simp_all, ‹_›, ‹_›, by simp_all, by simp_all⟩

/-! The checks read the records, and those of R10 the chains and the suspensions as well. -/

theorem slotFailure_same {s t : State} (hk : t.kept = s.kept) (hm : t.ism = s.ism) (hs : t.keys = s.keys) (i identity : Nat)
    (row : SlotRow) : t.slotFailure i identity row = s.slotFailure i identity row := by
  simp only [State.slotFailure, State.failureOnSlot, hk, hm, State.suspended, hs]

/-- A request that manages a slot answers with the first check of R21 and R22 that fails. -/
theorem checkManaged_fails {s : State} {i identity : Nat} {status : Status} (h : s.manageFailure i identity = some status) :
    checkManaged i identity s = .error status := by
  unfold checkManaged
  refine findSlot_fails h _ fun k _ hk => ?_
  simp only [check_bind, firstFailure_cons, firstFailure_nil] at hk ⊢
  repeat' split at hk
  all_goals simp_all

/-- A request that manages a slot, of which no check fails, finds the slot. -/
theorem checkManaged_passes {s : State} {i identity : Nat} (h : s.manageFailure i identity = none) :
    ∃ k, s.kept.slot i = some k ∧ checkManaged i identity s = .ok k := by
  obtain ⟨k, hi, hk, hc⟩ := failureOnSlot_none h
  simp only [firstFailure_cons, firstFailure_nil] at hc
  split at hc
  · exact ⟨k, hk, by unfold checkManaged; rw [findSlot_bind]; simp_all⟩
  · cases hc

theorem manageFailure_same {s t : State} (hk : t.kept = s.kept) (i identity : Nat) :
    t.manageFailure i identity = s.manageFailure i identity := by
  simp only [State.manageFailure, State.failureOnSlot, hk, hasRight_of_kept hk]

theorem createFailure_same {s t : State} (hk : t.kept = s.kept) (i identity : Nat) (p : Policy) :
    t.createFailure i identity p = s.createFailure i identity p := by
  simp only [State.createFailure, hk, hasRight_of_kept hk]

/-- A creating request answers with the first of the checks 1 to 5 of R17 that fails. -/
theorem checkCreate_fails {s : State} {i identity : Nat} {p : Policy} {status : Status}
    (h : s.createFailure i identity p = some status) : checkCreate i identity p s = .error status := by
  unfold State.createFailure at h
  unfold checkCreate creatableClass
  simp only [check_bind, firstFailure_cons, firstFailure_nil] at h ⊢
  generalize decide (i ≤ 23) = a, decide (4 ≤ i) = b at h ⊢
  rcases hc : SlotClass.ofCode p.classCode with _ | c
  · simp only [hc] at h
    repeat' split at h
    all_goals simp_all
  · simp only [hc, Option.any_some] at h
    cases c <;> (repeat' split at h) <;> simp_all

/-- A heard request that its service refuses has changed nothing. -/
theorem request_refused {s : State} {identity : Byte} {payload : Bytes} (h : s.Hears identity payload) {code : Req} {status : Status}
    (serve : Nat → Bytes → State → State) (hr : checkRight code identity.toNat payload s = .ok ())
    (hv : code.usesVault payload = false)
    (hs : ∀ t, Serving s code identity payload t → serve identity.toNat payload t = refuse status t) :
    ∃ t, event true (request code serve identity payload) s = .next t ∧ Replies s identity status [] t := by
  refine ⟨_, request_granted h serve hr hv, ?_⟩
  rw [hs _ (inService_serving s code identity payload)]
  exact (inService_serving s code identity payload).replies _ status []

/-- The same of a request that holds the vault (R145). -/
theorem request_refused_vault {s : State} {identity : Byte} {payload : Bytes} (h : s.Hears identity payload) {code : Req} {status : Status}
    (serve : Nat → Bytes → State → State) (hr : checkRight code identity.toNat payload s = .ok ())
    (hv : code.usesVault payload = true) (hf : s.vault.free = true)
    (hs : ∀ t, Serving s code identity payload t → serve identity.toNat payload t = refuse status t) :
    ∃ t, event true (request code serve identity payload) s = .next t ∧ Replies s identity status [] t := by
  refine ⟨_, request_granted_vault h serve hr hv hf, ?_⟩
  rw [hs _ (inService_serving_vault hf code identity payload)]
  exact (inService_serving_vault hf code identity payload).replies _ status []

/-! ## The checks of a credential request -/

theorem takeCounted_byteOf (counted rest : Bytes) (h : counted.length < 256) :
    takeCounted (byteOf counted.length :: (counted ++ rest)) = some (counted, rest) := by
  have e : (byteOf counted.length).toNat = counted.length := by
    simp [byteOf]
    omega
  simp [takeCounted, takeBytes, e]

theorem credFailure_same {s t : State} (hk : t.kept = s.kept) (hm : t.ism = s.ism) (identity : Nat) (label : Bytes)
    (fits : CredKind → Bool) (answers sealing : Bool) :
    t.credFailure identity label fits answers sealing = s.credFailure identity label fits answers sealing := by
  simp only [State.credFailure, hk, hm]

/-- A check of R128 fails because no record is found, or on the record that is found. -/
theorem credFailure_cases {s : State} {identity : Nat} {label : Bytes} {fits : CredKind → Bool} {answers sealing : Bool}
    {status : Status} (h : s.credFailure identity label fits answers sealing = some status) :
    (findLabelled label s = .error status ∧ status = .badArgument) ∨
      ∃ i c, findLabelled label s = .ok (i, c) ∧ firstFailure
        [(fits c.kind, .badArgument), (!answers || inSet c.answerSet identity, .notPermitted),
          (!sealing || s.ism.bindingMatches c.sealing, .bindingMismatch)] = some status := by
  unfold State.credFailure at h
  unfold findLabelled
  cases fit : labelFits label with
  | false =>
    rw [if_pos fit] at h
    cases h
    exact .inl ⟨rfl, rfl⟩
  | true =>
    rw [fit, if_neg (by decide)] at h
    cases found : s.kept.findCred label with
    | none =>
      rw [found] at h
      cases h
      exact .inl ⟨rfl, rfl⟩
    | some record =>
      rw [found] at h
      exact .inr ⟨record.1, record.2, rfl, h⟩

end Sys2Proof.Machine
end

