-- ==== Sys2Proof/Laws/Link.lean ====
section
/-! SUPPORT. What a transaction of the link sends, by the moment that it began in (R167, R172, R173, R175), in one lemma for each of its three kinds. -/

namespace Sys2Proof.Machine

/-! ## The moment a transaction began in -/

/-- A transaction that begins and ends in one state began in the link as it stands. -/
@[simp] theorem State.whenBegan_now (s : State) : s.whenBegan .now = some s.moment := rfl

@[simp] theorem State.heldSince_now (s : State) : s.heldSince .now = false := rfl

/-! ## What it sends -/

/-- Every byte clocked is answered, whatever hold comes between. -/
theorem State.sentBytes_length {s : State} {b : Began} {m : LinkMoment} {bytes : Bytes} (h : b.beforeHold ≤ bytes.length) :
    (s.sentBytes b m bytes).length = bytes.length := by
  unfold State.sentBytes
  split
  · simp
  · split
    · simp
      omega
    · rfl

theorem State.sentBytes_begunHeld {s : State} {b : Began} {m : LinkMoment} (h : m.held = true) (bytes : Bytes) :
    s.sentBytes b m bytes = List.replicate bytes.length 0xFF := by
  simp [State.sentBytes, h]

theorem State.sentBytes_free {s : State} {b : Began} {m : LinkMoment} (hm : m.held = false) (hs : s.heldSince b = false)
    (bytes : Bytes) : s.sentBytes b m bytes = bytes := by
  simp [State.sentBytes, hm, hs]

theorem State.sentBytes_cut {s : State} {b : Began} {m : LinkMoment} (hm : m.held = false) (hs : s.heldSince b = true)
    (bytes : Bytes) :
    s.sentBytes b m bytes = bytes.take b.beforeHold ++ List.replicate (bytes.length - b.beforeHold) 0xFF := by
  simp [State.sentBytes, hm, hs]

/-- A poll is answered byte for byte. -/
@[simp] theorem LinkMoment.pollBytes_length (m : LinkMoment) (n : Nat) : (m.pollBytes n).length = n := by
  unfold LinkMoment.pollBytes
  split <;> simp <;> omega

/-! ## The three commands -/

/-- A poll that takes no reply sends its bytes and changes nothing else (R172, R175). -/
theorem exec_poll_left {s : State} {b : Began} {m : LinkMoment} {n : Nat} (hp : s.powered = true)
    (hb : s.whenBegan b = some m) (ht : s.pollTakes b m n = false) :
    exec (.poll ⟨n, b⟩) s = .next (sends (s.sentBytes b m (m.pollBytes n)) s).settle := by
  simp [exec, execPoll, event, hp, hb, poll, ht]

/-- A poll that takes the reply whole (R172). -/
theorem exec_poll_taken {s : State} {b : Began} {m : LinkMoment} {n : Nat} (hp : s.powered = true)
    (hb : s.whenBegan b = some m) (ht : s.pollTakes b m n = true) :
    exec (.poll ⟨n, b⟩) s = .next (takeReply (sends (s.sentBytes b m (m.pollBytes n)) s)).settle := by
  simp [exec, execPoll, event, hp, hb, poll, ht]

/-- A transaction that is ignored sends its bytes and changes nothing else (R167). -/
theorem exec_ignored {s : State} {b : Began} {m : LinkMoment} {received : Bytes} (hp : s.powered = true)
    (hb : s.whenBegan b = some m) (hi : s.ignores received b = true) :
    exec (.linkTransactionIgnored ⟨received, b⟩) s =
      .next (sends (s.sentBytes b m (List.replicate received.length 0xEE)) s).settle := by
  simp [exec, execLinkTransactionIgnored, event, hp, hi, ignore, hb]

/-- An overrun frame is counted, whatever it sends (R173). -/
theorem exec_overrun {s : State} {b : Began} {m : LinkMoment} {frame : Bytes} (hp : s.powered = true)
    (hb : s.whenBegan b = some m) (ho : s.overruns frame b = true) :
    exec (.overrun ⟨frame, b⟩) s =
      .next (overrun (s.sentBytes b m (List.replicate frame.length 0xEE)) s).settle := by
  simp [exec, execOverrun, event, hp, ho, overrunFrame, hb]

end Sys2Proof.Machine
end

