-- ==== Sys2Proof/Laws/Policy.lean ====
section
/-! SUPPORT. No write widens the policy of a slot (R21). -/

namespace Sys2Proof.Machine

theorem KeySlot.Narrower.refl (k : KeySlot) : k.Narrower k :=
  ⟨rfl, rfl, rfl, fun _ h => h, fun _ h => h, fun _ => rfl, fun h e => ⟨h, e, Nat.le_refl _⟩, id⟩

theorem KeySlot.Narrower.trans {k l m : KeySlot} (a : k.Narrower l) (b : l.Narrower m) : k.Narrower m where
  slotClass := b.slotClass.trans a.slotClass
  kind := b.kind.trans a.kind
  label := b.label.trans a.label
  usage u h := a.usage u (b.usage u h)
  answers i h := a.answers i (b.answers i h)
  binding h := (b.binding (by rwa [a.binding h])).trans (a.binding h)
  limit held e := by
    obtain ⟨l₁, e₁, h₁⟩ := a.limit held e
    obtain ⟨l₂, e₂, h₂⟩ := b.limit l₁ e₁
    exact ⟨l₂, e₂, by omega⟩
  retired h := b.retired (a.retired h)

/-- Use counts and material of the same kind are no part of a policy. -/
theorem KeySlot.narrower_use (k : KeySlot) (count : Nat) (m : KeyMaterial) (h : m.kind = k.material.kind) :
    k.Narrower { k with useCount := count, material := m } :=
  ⟨rfl, h, rfl, fun _ h => h, fun _ h => h, fun _ => rfl, fun h e => ⟨h, e, Nat.le_refl _⟩, id⟩

theorem KeySlot.narrower_retired (k : KeySlot) : k.Narrower k.retired := by
  refine ⟨rfl, ?_, rfl, fun _ h => h, fun _ h => h, fun _ => rfl, fun h e => ⟨h, e, Nat.le_refl _⟩, fun _ => rfl⟩
  cases h : k.material <;> simp [KeySlot.retired, h, KeyMaterial.retired, KeyMaterial.kind]

theorem KeySlot.narrower_counted (k : KeySlot) : k.Narrower k.counted := by
  unfold KeySlot.counted
  split
  · exact k.narrower_use _ _ rfl
  · dsimp only
    split
    · exact (k.narrower_use _ _ rfl).trans (KeySlot.narrower_retired _)
    · exact k.narrower_use _ _ rfl

theorem KeySlot.narrower_appended (chunk : Bytes) (k : KeySlot) : k.Narrower (k.appended chunk) := by
  unfold KeySlot.appended
  split
  · rename_i e
    exact k.narrower_use _ _ (by rw [e]; rfl)
  · exact .refl k

theorem inSet_of_subset {small large : Byte} (h : subset small large = true) (u : Nat) (hu : inSet small u = true) :
    inSet large u = true := by
  have e := congrArg (fun x => x.getLsbD u) (beq_iff_eq.1 h)
  have hb := BitVec.lt_of_getLsbD hu
  simp only [inSet] at hu ⊢
  simpa [hu, hb] using e

/-- A policy that narrows the one held is narrower (R21). -/
theorem KeySlot.narrower_restricted {k : KeySlot} {usage answers : Byte} {limit : Option Nat} {binding : Option Binding}
    (h : k.narrowsTo usage answers limit binding = true) : k.Narrower (k.restricted usage answers limit binding) := by
  simp only [KeySlot.narrowsTo, Bool.and_eq_true, Bool.or_eq_true, Option.isNone_iff_eq_none] at h
  obtain ⟨⟨⟨⟨⟨_, hu⟩, _⟩, ha⟩, hb⟩, hl⟩ := h
  have b : k.Narrower { k with
      usage := usage, answerSet := answers, useLimit := limit.or k.useLimit, binding := binding.or k.binding } := by
    refine ⟨rfl, rfl, rfl, inSet_of_subset hu, inSet_of_subset ha, fun e => ?_, fun held e => ?_, id⟩
    · rcases hb with rfl | hb
      · rfl
      · exact absurd hb e
    · cases limit with
      | none => exact ⟨held, e, Nat.le_refl _⟩
      | some l => exact ⟨l, rfl, by simpa [limitNarrows, e] using hl⟩
  unfold KeySlot.restricted
  dsimp only
  split
  · split
    · exact b.trans (KeySlot.narrower_retired _)
    · exact b
  · exact b

theorem Records.updateSlot_narrower {r : Records} {p : Place} {f : KeySlot → KeySlot}
    (hf : ∀ k, r.slotAt p = some k → k.Narrower (f k)) {i : Nat} {k l : KeySlot} (h : r.slot i = some k)
    (hl : (r.updateSlot p f).slot i = some l) : k.Narrower l := by
  cases e : r.slotAt p with
  | none =>
    simp only [Records.updateSlot, e, h, Option.some.injEq] at hl
    exact hl ▸ .refl k
  | some k' =>
    obtain ⟨changed, others, _⟩ := Records.updateSlot_some e f
    by_cases hi : i = p.index
    · subst hi
      rw [changed] at hl
      rw [(Records.slotAt_some e).2] at h
      cases h
      injection hl with hl
      exact hl ▸ hf _ e
    · rw [others i hi, h] at hl
      injection hl with hl
      exact hl ▸ .refl k

/-- A write leaves every slot that it does not empty with a policy that is no wider. -/
theorem Records.apply_narrower {r : Records} {op : StoreOp} {i : Nat} {k l : KeySlot} (h : r.slot i = some k)
    (hl : (r.apply op).slot i = some l) : k.Narrower l := by
  have same : ∀ q : Records, q.slots = r.slots → q.slot i = some l → k.Narrower l := by
    intro q e hq
    have hs : q.slot i = r.slot i := by simp only [Records.slot, e]
    rw [hs, h] at hq
    injection hq with hq
    exact hq ▸ .refl k
  unfold Records.apply at hl
  split at hl
  · rename_i hc
    cases op <;> simp only [Records.written] at hl
    case slotPut j record =>
      have hj : r.slot j = none := by
        cases e : r.slot j with
        | none => rfl
        | some _ =>
          simp only [Records.recheck_slotPut, Records.recheckSlot, e, Option.isNone_some, Bool.false_eq_true, if_false, check_bind] at hc
          cases hc
      have hi : j ≠ i := by
        rintro rfl
        rw [h] at hj
        cases hj
      have hs : (r.withSlot j (some record)).slot i = r.slot i := by simp [Records.withSlot, Records.slot, hi]
      rw [hs, h] at hl
      injection hl with hl
      exact hl ▸ .refl k
    case slotAppend p _ chunk => exact Records.updateSlot_narrower (fun k _ => k.narrower_appended chunk) h hl
    case slotCount p => exact Records.updateSlot_narrower (fun k _ => k.narrower_counted) h hl
    case slotRetire p => exact Records.updateSlot_narrower (fun k _ => k.narrower_retired) h hl
    case slotRestrict p usage answers limit binding =>
      refine Records.updateSlot_narrower (fun k hk => KeySlot.narrower_restricted ?_) h hl
      cases e : k.narrowsTo usage answers limit binding with
      | true => rfl
      | false =>
        simp only [Records.recheck_slotRestrict, Records.recheckSlot, hk, present_some, Checked.bind_ok, checkActive, check_bind, e, check_false] at hc
        split at hc <;> cases hc
    case slotErase p =>
      cases e : r.slotAt p with
      | none => exact same _ (by simp [Records.emptySlot, e]) hl
      | some k' =>
        obtain ⟨emptied, others, _⟩ := Records.emptySlot_some e
        by_cases hi : i = p.index
        · subst hi
          rw [emptied] at hl
          cases hl
        · rw [others i hi, h] at hl
          injection hl with hl
          exact hl ▸ .refl k
    case ownerReset =>
      have hi := Records.slot_lt h
      have e : r.ownerReset.slot i = (r.slot i).bind KeySlot.ownerReset := by simp [Records.ownerReset, Records.slot, hi]
      rw [e, h] at hl
      unfold KeySlot.ownerReset at hl
      simp only [Option.bind_some] at hl
      split at hl
      · cases hl
      · injection hl with hl
        exact hl ▸ .refl k
    case credPut =>
      split at hl
      · exact same _ rfl hl
      · exact same r rfl hl
    case credCharge => unfold Records.updateCred at hl; split at hl <;> exact same _ rfl hl
    case credMatch => unfold Records.updateCred at hl; split at hl <;> exact same _ rfl hl
    case credValue => unfold Records.updateCred at hl; split at hl <;> exact same _ rfl hl
    case credDecay => unfold Records.updateCred at hl; split at hl <;> exact same _ rfl hl
    case credRemove => unfold Records.removeCred at hl; split at hl <;> exact same _ rfl hl
    case arm => unfold Records.arm at hl; split at hl <;> exact same _ rfl hl
    case disarm => unfold Records.disarm at hl; split at hl <;> exact same _ rfl hl
    case trialTry => unfold Records.trialTry at hl; split at hl <;> exact same _ rfl hl
    case confirmBoot =>
      unfold Records.confirmBoot at hl
      split at hl
      · refine same _ ?_ hl
        cases r.selector.active <;> rfl
      · exact same _ rfl hl
    case confirmLine => unfold Records.confirmLine at hl; split at hl <;> exact same _ rfl hl
    all_goals exact same _ rfl hl
  · exact same r rfl hl

end Sys2Proof.Machine
end

