-- ==== Sys2Proof/Laws/Work.lean ====
section
/-! SUPPORT. What the completions of background work come to, each in one lemma: a block that completes a digest (R44, R52), a burst granted and
read (R51 to R54), a verification that is rejected or goes on to a job (R105, R49), and a write that completes or fails (R182, R183). -/

namespace Sys2Proof.Machine

/-! ## A digest completes -/

/-- The state in which the block being absorbed has been absorbed into its context, before anything else happens. -/
def State.blockTaken (s : State) (a : Absorption) : State := { s with digest := s.digest.absorbed a }

/-- The engine takes its next block, and the pins follow. -/
def State.goesOn (s : State) : State := ({ s with digest := s.digest.takeBlock } : State).settle

@[simp] theorem DigestEngine.takeBlock_reader (d : DigestEngine) : d.takeBlock.reader = d.reader := by
  unfold DigestEngine.takeBlock
  split <;> rfl

@[simp] theorem DigestEngine.takeBlock_link (d : DigestEngine) : d.takeBlock.link = d.link := by
  unfold DigestEngine.takeBlock
  split <;> rfl

/-- A block that completes the digest of a request: the request goes on with it (R46). -/
theorem exec_linkFinishes {s : State} (h : s.LinkFinishes) :
    exec .deBlockAbsorbed s = .next (linkDigestDone s.linkDigest (s.blockTaken ⟨.link, false⟩)).goesOn := by
  have hf : (s.digest.absorbed ⟨.link, false⟩).link = s.digest.link.absorb := rfl
  simp [exec, execDeBlockAbsorbed, event, h.powered, absorbNow, h.absorbing, blockAbsorbed, DigestEngine.context, hf, h.finished,
    contextDone, State.linkDigest, State.blockTaken, State.goesOn]

/-- A block that completes the digest of the job in progress: the job ends with it (R52). -/
theorem exec_jobFinishes {s : State} {j : Job} (h : s.JobFinishes j) :
    exec .deBlockAbsorbed s =
      .next (endJob j (some s.measuredDigest) (s.blockTaken ⟨.reader, false⟩)).goesOn := by
  have hf : (s.digest.absorbed ⟨.reader, false⟩).reader = s.digest.reader.absorb := rfl
  simp [exec, execDeBlockAbsorbed, event, h.powered, absorbNow, h.absorbing, blockAbsorbed, DigestEngine.context, hf, h.finished,
    contextDone, State.measuredDigest, State.blockTaken, State.goesOn, endJobIfDone, h.current, h.read, h.live]

/-! ## Bursts -/

/-- A burst of the job in progress is granted, and read from the job's current address (R51, R56). -/
theorem exec_burstGranted {s : State} {j : Job} (hp : s.powered = true) (hg : s.burstGranted = true)
    (hj : s.reader.current = some j) :
    exec .frBurstStart s = .next (State.settle
      { s with
        reader := { s.reader with bursting := true }
        port := { s.port with side := .burst j.address j.burst, busy := false } }) := by
  simp [exec, execFrBurstStart, event, hp, hg, startBurst, hj]

/-- A burst that is not granted does not start (R56). -/
theorem exec_burstNotGranted {s : State} (hg : s.burstGranted = false) : exec .frBurstStart s = .next s := by
  simp [exec, execFrBurstStart, event, hg]

/-- The state in which a burst's bytes have been read, and the port is free (R51, R56). -/
def State.burstTaken (s : State) : State :=
  { s with port := { s.port with side := .idle }, reader := { s.reader with bursting := false } }

/-- A burst of a cancelled job: its bytes are discarded and the job is removed (R54). -/
theorem exec_burstCancelled {s : State} {j : Job} {bytes : Bytes} (h : s.BurstArrives j bytes)
    (hc : s.reader.cancelled = true) :
    exec (.frBurstComplete bytes) s = .next (pump (dropCurrent s.burstTaken)).settle := by
  have hf : s.burstFits bytes = true := by simp [State.burstFits, h.bursting, h.current, Job.burst, h.whole]
  simp [exec, execFrBurstComplete, event, h.powered, hf, burstRead, h.current, hc, State.burstTaken]

/-- The state in which a burst of a live job has been read and its remaining length lowered (R51). -/
def State.burstCounted (s : State) (j : Job) : State :=
  { s with
    port := { s.port with side := .idle }
    reader := { s.reader with bursting := false, current := some { j with remaining := j.remaining - min 256 j.remaining } } }

/-- A burst of a live job: its bytes are given, and the job may end (R51, R53). -/
theorem exec_burstArrives {s : State} {j : Job} {bytes : Bytes} (h : s.BurstArrives j bytes)
    (hc : s.reader.cancelled = false) :
    exec (.frBurstComplete bytes) s = .next (endJobIfDone
      (if j.isManifest then manifestBurst j bytes (s.burstCounted j) else plainBurst j bytes (s.burstCounted j))).settle := by
  have hf : s.burstFits bytes = true := by simp [State.burstFits, h.bursting, h.current, Job.burst, h.whole]
  simp [exec, execFrBurstComplete, event, h.powered, hf, burstRead, h.current, hc, State.burstCounted, h.whole]

/-! ## Jobs that join the list (R49, R50) -/

/-- A job that has joined stays in the list as others join. -/
theorem placeAll_stays (jobs : List Job) (r : FlashReader) {j : Job} (h : j ∈ r.waiting) : j ∈ (placeAll jobs r).2.waiting := by
  induction jobs generalizing r with
  | nil => exact h
  | cons first rest ih =>
    unfold placeAll
    split
    · exact ih _ (by simp [h])
    · exact h

/-- A requester's job joins the list, or stays unplaced. -/
theorem placeAll_mem (jobs : List Job) (r : FlashReader) {j : Job} (h : j ∈ jobs) :
    j ∈ (placeAll jobs r).1 ∨ j ∈ (placeAll jobs r).2.waiting := by
  induction jobs generalizing r with
  | nil => simp at h
  | cons first rest ih =>
    unfold placeAll
    split
    · rcases List.mem_cons.1 h with rfl | h
      · exact .inr (placeAll_stays _ _ (by simp))
      · exact ih _ h
    · exact .inl h

/-- The job that starts leaves the waiting jobs for the job in progress: none is lost. -/
theorem FlashReader.start_keeps (r : FlashReader) {j : Job} (h : j ∈ r.waiting) : j ∈ r.start.entries := by
  unfold FlashReader.start FlashReader.entries
  split
  · rename_i first _ _
    by_cases hj : j = first
    · simp [hj]
    · exact List.mem_append_right _ ((List.mem_erase_of_ne hj).2 h)
  · simp [h]

/-- Jobs join the list at its end in their order, and those that find no entry free stay unplaced in theirs (R49, R191). -/
theorem placeAll_order (jobs : List Job) (r : FlashReader) :
    (placeAll jobs r).2.entries ++ (placeAll jobs r).1 = r.entries ++ jobs := by
  induction jobs generalizing r with
  | nil => simp [placeAll]
  | cons first rest ih =>
    unfold placeAll
    split
    · rw [ih]
      simp [FlashReader.entries]
    · rfl

/-- The jobs of one purpose stand as they stood where jobs of another join (R49). -/
theorem placeAll_other {p q : Purpose} (hpq : p ≠ q) (jobs : List Job) (r : FlashReader) (h : ∀ j ∈ jobs, j.purpose = q) :
    (placeAll jobs r).2.entries.filter (·.purpose == p) = r.entries.filter (·.purpose == p) := by
  induction jobs generalizing r with
  | nil => simp [placeAll]
  | cons first rest ih =>
    unfold placeAll
    split
    · rw [ih _ fun j hj => h j (by simp [hj])]
      simp [FlashReader.entries, h first (by simp), hpq.symm]
    · rfl

/-- The job that starts is the first of its purpose, so that the jobs of each purpose keep their order (R50, R191). -/
theorem FlashReader.start_order (p : Purpose) (r : FlashReader) :
    r.start.entries.filter (·.purpose == p) = r.entries.filter (·.purpose == p) := by
  have erased : ∀ (q : Purpose) (l : List Job) (j : Job), l.find? (fun x => x.purpose == q) = some j →
      (j :: l.erase j).filter (·.purpose == p) = l.filter (·.purpose == p) := by
    intro q l j h
    induction l with
    | nil => simp at h
    | cons a l ih =>
      by_cases ha : a = j
      · simp [ha]
      · have hq : j.purpose = q := by simpa using List.find?_some h
        have haq : a.purpose ≠ q := by
          intro haq
          simp [haq] at h
          exact ha h
        rw [List.erase_cons_tail (by simpa using ha)]
        have := ih (by simpa [haq] using h)
        by_cases hp : j.purpose = p
        · have hap : a.purpose ≠ p := by rwa [← hp, hq]
          simp_all
        · simp_all [List.filter_cons]
  unfold FlashReader.start
  split
  · rename_i j hc hn
    simp only [FlashReader.entries, hc, Option.toList, List.nil_append, List.singleton_append]
    unfold FlashReader.next at hn
    rcases h1 : r.waiting.find? (fun j => j.purpose == .bootMeasure) with _ | a
    · rw [h1] at hn
      rcases h2 : r.waiting.find? (fun j => j.purpose == .imageVerify) with _ | a
      · rw [h2] at hn
        exact erased _ _ _ (by simpa using hn)
      · simp only [h2, Option.none_or, Option.some_or, Option.some.injEq] at hn
        exact erased _ _ _ (hn ▸ h2)
    · simp only [h1, Option.some_or, Option.some.injEq] at hn
      exact erased _ _ _ (hn ▸ h1)
  · rfl

/-- Image Acceptance's job is in the list, or waits for an entry. -/
theorem placeImageJob_placed (j : Job) (s : State) :
    j ∈ (placeImageJob j s).reader.entries ++ (placeImageJob j s).image.unplaced.toList := by
  simp only [placeImageJob, pump, refill, Option.toList]
  rcases placeAll_mem [j] (placeAll s.gate.unplaced s.reader).2 (j := j) (by simp) with h | h
  · have hj : (placeAll [j] (placeAll s.gate.unplaced s.reader).2).1 = [j] := by
      unfold placeAll at h ⊢
      split at h
      · simp [placeAll] at h
      · rw [if_neg ‹_›]
    exact List.mem_append_right _ (by simp [hj])
  · exact List.mem_append_left _ (FlashReader.start_keeps _ (placeAll_stays _ _ h))

/-! ## A verification is rejected (R105) -/

/-- A rejection with the fields known and the progress reached (R95, R105). -/
theorem reject_rejected (reason : RejectReason) (s : State) :
    Rejected s s.image.knownFields s.image.progress reason (reject reason s) := by
  obtain ⟨hi, he, hs, hk⟩ := stopVerification_stopped s
  exact ⟨by simp only [reject, State.handOver, hs], hi, he, hk⟩

/-! ## Writes -/

/-- A write or update that completes: the records take it, and its writer goes on (R182). -/
theorem exec_writeCompletes {s : State} {item : StoreItem} (hp : s.powered = true) (hm : s.store.making = some item) :
    exec .storeWriteComplete s = .next (complete item s).settle := by
  simp [exec, execStoreWriteComplete, event, hp, hm, completeNow]

/-- A write or update that completes and whose checks still hold: every record it names takes its new content, and its writer goes on (R182). -/
theorem exec_writeMade {s : State} {op : StoreOp} {after : After} (hp : s.powered = true)
    (hm : s.store.making = some ⟨op, after⟩) (hr : s.kept.recheck op = .ok ()) :
    exec .storeWriteComplete s = .next (interruptStep (goOn after (completionEffects s.kept op
      { s with kept := s.kept.written op, store := { s.store with making := none } }))).settle := by
  rw [exec_writeCompletes hp hm]
  simp [complete, made, Records.apply, hr]

/-- A write or update that completes and one of whose checks no longer holds is not made, and its writer goes on with that check's reply (log
entry 46). -/
theorem exec_writeRefused {s : State} {op : StoreOp} {after : After} {status : Status} (hp : s.powered = true)
    (hm : s.store.making = some ⟨op, after⟩) (hr : s.kept.recheck op = .error status) :
    exec .storeWriteComplete s =
      .next (interruptStep (goOnFailed status after { s with store := { s.store with making := none } })).settle := by
  rw [exec_writeCompletes hp hm]
  simp [complete, hr]

/-- A write or update that fails: the records stand, and its writer goes on (R183). -/
theorem exec_writeFails {s : State} {item : StoreItem} (hp : s.powered = true) (hm : s.store.making = some item) :
    exec .storeWriteFailed s = .next (failItem item s).settle := by
  simp [exec, execStoreWriteFailed, event, hp, hm, failNow]

/-- Where bank selection is not awaited, a write's end is no start of measurement's step (R68). -/
theorem interruptStep_idle {s : State} (h : s.gate.selection = .idle) : interruptStep s = s := by
  simp [interruptStep, h]

end Sys2Proof.Machine
end

