-- ==== Sys2Proof/WellFormed.lean ====
section
/-! DEFINITION. Which commands can arise on the part's lines: a check on each row's operands.

`Instr.wf` is the static check of a command. It says nothing about the state in which the command is taken; a command whose
condition does not hold in a state leaves that state unchanged (log entry 5). -/

namespace Sys2Proof

/-- A request frame carries at most 1024 payload bytes (R168, R170 step 2). -/
def payloadWf (payload : Bytes) : Bool := decide (payload.length ≤ 1024)

/-- A payload whose form byte, at an offset, is the one its row names (R157, R185). -/
def formWf (payload : Bytes) (offset : Nat) (form : Byte) : Bool :=
  payloadWf payload && payload[offset]? == some form

/-- A request frame of two or more bytes: its first byte is the sync byte A5 (R167). -/
def frameWf (frame : Bytes) : Bool := decide (2 ≤ frame.length) && frame.head? == some 0xA5

/-- The bytes sent before SOC_HOLD was asserted in a transaction of some bytes: no more than all of them, and none where nothing changed
in it. -/
def Began.wf (length : Nat) (b : Began) : Bool :=
  decide (b.beforeHold ≤ length) && (decide (0 < b.changes) || decide (b.beforeHold = 0))

/-- The commands that can arise on the part's lines. -/
def Instr.wf : Instr → Bool
  | .powerOn _ | .powerLoss _ | .bankSelection | .attachDeadlineExpiry | .bootCompleteDeadlineExpiry
  | .holdDwellExpiry | .socRestart | .rebootTimerExpiry | .silenceWatchExpiry | .scanTimerExpiry
  | .deBlockAbsorbed | .frBurstStart | .seOperationComplete | .keyMaterialGenerated | .storeWriteStart
  | .storeWriteComplete | .storeWriteFailed | .verificationDeadlineExpiry | .socFlashForward
  | .socFlashCsRise _ | .ownerResetUpdate | .btnLevelChange _ | .debouncedPress | .debouncedRelease
  | .buttonHold | .presenceWindowTimeout | .patternPeriodEnd _ | .onTimeEnd => true
  | .frBurstComplete bytes => decide (1 ≤ bytes.length ∧ bytes.length ≤ 256)
  | .socFlashCommand (.erase _ size) => decide (0 < size)
  | .socFlashCommand _ => true
  | .linkTransactionIgnored received => received.began.wf received.bytes.length
  | .badFrame frame => frameWf frame
  | .overrun frame => frameWf frame.bytes && frame.began.wf frame.bytes.length
  | .frameTimeout received _ => frameWf received
  | .poll clocked => decide (0 < clocked.count) && clocked.began.wf clocked.count
  | .decayStep record => decide (record < 16)
  | .setIndicatorPattern _ payload => formWf payload 0 1
  | .setIndicatorClear _ payload => formWf payload 0 0
  | .provisionSlotGenerate _ payload => formWf payload 1 0
  | .provisionSlotPublic _ payload => formWf payload 1 1
  | .provisionSlotBlob _ payload => formWf payload 1 2
  | .provisionSlotErase _ payload => formWf payload 1 3
  | .identify _ payload | .readAttention _ payload | .clearAttention _ payload | .setAlertMask _ payload
  | .setParameter _ payload | .readParameter _ payload | .keyInfo _ payload | .keyGenerate _ payload
  | .keyImport _ payload | .keyExportPublic _ payload | .keySign _ payload | .keyDerive _ payload
  | .keyRestrict _ payload | .keyRetire _ payload | .keyErase _ payload | .blobWrite _ payload
  | .blobRead _ payload | .extendDigest _ payload | .extendData _ payload | .readChains _ payload
  | .readLog _ payload | .advanceStage _ payload | .requesterWrite _ payload | .requesterRead _ payload
  | .makeStatement _ payload | .verifyStaged _ payload | .imageStatus _ payload | .abortImage _ payload
  | .armTrial _ payload | .confirmImage _ payload | .rebootRouter _ payload | .readCounters _ payload
  | .scanStatus _ payload | .vaultStatus _ payload | .vaultClaim _ payload | .credEnroll _ payload
  | .credCheck _ payload | .credRetrieve _ payload | .credChange _ payload | .credRemove _ payload
  | .ownerReset _ payload | .presenceStatus _ payload | .reactionRead _ payload
  | .reactionWrite _ payload | .patternWrite _ payload | .provisionCredential _ payload
  | .provisionLayout _ payload | .provisionGolden _ payload | .lockFactory _ payload => payloadWf payload

end Sys2Proof
end

