-- ==== Sys2Proof/Tests/Slice0.lean ====
section
/-! SUPPORT. The model's own tests: the check on commands with an ill-formed term for each of its parts, a few values that the manual gives, and
for every statement that has hypotheses a state and operands that meet them together. -/

namespace Sys2Proof.Tests

open Sys2Proof.Machine

-- One theorem after another: the kernel evaluations of many at once would each take a thread's memory.
set_option Elab.async false

/-! ## The check on commands: one ill-formed term for each part -/

theorem test_wf_payload_fits : (Instr.keyInfo 0 (List.replicate 1024 0)).wf = true := by decide +kernel
theorem test_wf_payload_too_long : (Instr.keyInfo 0 (List.replicate 1025 0)).wf = false := by decide +kernel
theorem test_wf_burst_empty : (Instr.frBurstComplete []).wf = false := by decide
theorem test_wf_burst_too_long : (Instr.frBurstComplete (List.replicate 257 0)).wf = false := by decide +kernel
theorem test_wf_erase_of_nothing : (Instr.socFlashCommand (.erase 0 0)).wf = false := by decide
theorem test_wf_frame_of_sync_alone : (Instr.badFrame [0xA5]).wf = false := by decide
theorem test_wf_frame_without_sync : (Instr.overrun ⟨[0xA4, 0], .now⟩).wf = false := by decide
theorem test_wf_timeout_without_sync : (Instr.frameTimeout [0x00, 1] 2000).wf = false := by decide
theorem test_wf_poll_of_nothing : (Instr.poll ⟨0, .now⟩).wf = false := by decide
theorem test_wf_poll_cut_after_its_end : (Instr.poll ⟨3, ⟨1, 4⟩⟩).wf = false := by decide
theorem test_wf_ignored_cut_after_its_end : (Instr.linkTransactionIgnored ⟨[0xA5, 0], ⟨1, 3⟩⟩).wf = false := by decide
theorem test_wf_overrun_cut_in_one_state : (Instr.overrun ⟨[0xA5, 0], ⟨0, 1⟩⟩).wf = false := by decide
theorem test_wf_decay_of_record_16 : (Instr.decayStep 16).wf = false := by decide
theorem test_wf_indicator_form : (Instr.setIndicatorPattern 0 [0]).wf = false := by decide
theorem test_wf_indicator_clear_form : (Instr.setIndicatorClear 0 [1]).wf = false := by decide
theorem test_wf_provision_form : (Instr.provisionSlotErase 0 [0, 2]).wf = false := by decide

/-! ## Values that the manual gives -/

/-- The check value of the CRC (R168). -/
theorem test_crc_check_value : crc16 [0x31, 0x32, 0x33, 0x34, 0x35, 0x36, 0x37, 0x38, 0x39] = 0x29B1#16 := by decide +kernel

set_option maxRecDepth 100000 in
/-- The digest of the three bytes abc (log entry 4). -/
theorem test_digest_of_abc : sha256 [0x61, 0x62, 0x63] =
    [0xba, 0x78, 0x16, 0xbf, 0x8f, 0x01, 0xcf, 0xea, 0x41, 0x41, 0x40, 0xde, 0x5d, 0xae, 0x22, 0x23,
     0xb0, 0x03, 0x61, 0xa3, 0x96, 0x17, 0x7a, 0x9c, 0xb4, 0x10, 0xff, 0x61, 0xf2, 0x00, 0x15, 0xad] := by
  decide +kernel

/-- The penalties of the default parameters (R133, chapter 12). -/
theorem test_penalties : [3, 4, 5, 6, 14, 15].map (penalty factoryVault) = [0, 5, 10, 20, 5120, 7200] := by decide +kernel

set_option maxRecDepth 100000 in
/-- The state after reset is the power-on of the factory records (R190). -/
theorem test_reset_is_power_on : powerOnFrom factoryRecords false 0 [] = State.reset := by decide +kernel

/-- The frame timeout of a declared payload of 64 bytes (R169). -/
theorem test_frame_timeout : frameLimit [0xA5, 0x01, 0x00, 64, 0] = 1710 := by decide +kernel

/-! ## A part in the field -/

def key32 : Bytes := List.replicate 32 1
def key64 : Bytes := List.replicate 64 2

/-- Slot 1, the attestation pair. -/
def attestation : KeySlot := ⟨.factory, .active, [0x74], 0b000010, 0xFF, none, none, 0, .pair (some key32) key64⟩
/-- Slot 4, a signing pair of class SYSTEM with a use limit. -/
def signing : KeySlot := ⟨.system, .active, [0x73], 0b000001, 0xFF, none, some 2, 1, .pair (some key32) key64⟩
/-- Slot 5, a secret of class SYSTEM. -/
def secretSlot : KeySlot := ⟨.system, .active, [0x75], 0b011000, 0xFF, none, none, 0, .secret (some key32)⟩
/-- Slot 6, a readable blob of class SYSTEM. -/
def blobSlot : KeySlot := ⟨.system, .active, [0x76], 0b100000, 0xFF, none, none, 0, .blob [1, 2, 3]⟩
/-- Slot 7, a public key of class OWNER. -/
def ownerSlot : KeySlot := ⟨.owner, .active, [0x77], 0b000100, 0xFF, none, none, 0, .verifyPublic key64⟩
/-- Slot 8, a retired pair of class SYSTEM. -/
def retiredSlot : KeySlot := ⟨.system, .retired, [0x78], 0b000001, 0xFF, none, none, 0, .pair none key64⟩

/-- Record 0, a VERIFIER of class FACTORY; record 1, a SECRET of class OWNER whose change and removal need presence; record 2, one that does not. -/
def passphrase : Credential := ⟨[0x61], .verifier, .factory [9] false, [9], 0xFF, none, false, 5⟩
def guarded : Credential := ⟨[0x62], .secret, .owner, List.replicate 8 7, 0xFF, none, true, 0⟩
def unguarded : Credential := ⟨[0x63], .secret, .owner, List.replicate 8 7, 0xFF, none, false, 0⟩

def goldenSet : GoldenSet := ⟨true, 11, 7, [⟨4096, 4096, key32, true, false⟩, ⟨8192, 4096, key32, true, true⟩]⟩
def fields0 : ImageFields := ⟨0, 12, 8, 0, 1⟩
def fields1 : ImageFields := ⟨1, 12, 8, 0, 1⟩

/-- Records of a part in the field; identity 0 holds every right. -/
def records : Records := { factoryRecords with
  lifecycle := .field
  requesters := factoryRequesters.setIfInBounds 0 ⟨true, .services, 7⟩
  layout := some ⟨0x800000, 0x400000⟩
  goldenA := goldenSet
  vault := { factoryVault with claimed := true }
  slots := (((((factoryRecords.slots.setIfInBounds 1 (some attestation)).setIfInBounds 4 (some signing)).setIfInBounds 5
    (some secretSlot)).setIfInBounds 6 (some blobSlot)).setIfInBounds 7 (some ownerSlot)).setIfInBounds 8 (some retiredSlot)
  creds := ((factoryRecords.creds.setIfInBounds 0 (some passphrase)).setIfInBounds 1 (some guarded)).setIfInBounds 2
    (some unguarded) }

/-- The same records after slot 4 and record 0 have been emptied and created anew (log entry 53). -/
def recreated : Records := { records with
  slotLives := records.slotLives.setIfInBounds 4 1, credLives := records.credLives.setIfInBounds 0 1 }

/-- A part in the field in RUNNING, with its link IDLE, at an uptime of 100 s. -/
def running : State := { State.reset with
  kept := records
  gate := { gateAtPowerOn with state := .running, releaseCount := 1 }
  port := { portAtPowerOn with mapping := some ⟨.bank .a, .b⟩ }
  uptime := 100000 }

/-- The same part in MANUFACTURE. -/
def factory : State := { running with kept := { records with lifecycle := .manufacture } }

/-- The same part with the presence window open. -/
def present : State := { running with biu := { running.biu with window := some 130000 } }

/-- The same part with its link SERVING a request whose service stands somewhere. -/
def serving (code : Req) (service : Service) : State := { running with
  link := { linkAtPowerOn with state := .serving, request := some ⟨code, 0, []⟩, service := service } }

/-- A part whose store is making an item. -/
def storing (item : StoreItem) : State := { serving .keySign .none with store := ⟨some item, []⟩ }
/-- A blob to be created. -/
def newBlob : KeySlot := { blobSlot with label := [0x7a], material := .blob [5] }

/-- The same with the last block of a digest in the LINK context being absorbed. -/
def digested (code : Req) (service : Service) : State := { serving code service with
  digest := digestAtPowerOn.beginLink none [1, 2, 3] }

theorem digested_finishes (code : Req) (service : Service) : (digested code service).LinkFinishes :=
  ⟨rfl, show (digestAtPowerOn.beginLink none [1, 2, 3]).absorbing = some ⟨.link, false⟩ by decide +kernel,
    show (digestAtPowerOn.beginLink none [1, 2, 3]).link.absorb.state = .finished by decide +kernel⟩

/-- A credential that CRED ENROLL carries, and the bytes that carry it. -/
def form (kind : Nat) (value : Bytes) : CredForm := ⟨[0x64], kind, 1, 0, 0, 0, [], value⟩

/-- The same part with bank selection to come. -/
def selecting (kept : Records) : State := { running with
  kept := kept
  gate := { gateAtPowerOn with selection := .awaiting false true }
  biu := { biuAtPowerOn false with button := .released } }

theorem hears_running {payload : Bytes} (h : payload.length ≤ 1024) : running.Hears 0 payload :=
  ⟨rfl, rfl, rfl, h, by decide, by decide +kernel⟩

theorem hears_factory {payload : Bytes} (h : payload.length ≤ 1024) : factory.Hears 0 payload :=
  ⟨rfl, rfl, rfl, h, by decide, by decide +kernel⟩

theorem hears_present {payload : Bytes} (h : payload.length ≤ 1024) : present.Hears 0 payload :=
  ⟨rfl, rfl, rfl, h, by decide, by decide +kernel⟩

/-! ## A few commands run -/

/-- The state that a command leaves. -/
def after (c : Instr) (s : State) : State :=
  match exec c s with
  | .next t => t
  | _ => s

/-- IDENTIFY answers with 23 bytes (R179). -/
theorem test_identify : ((after (.identify 0 []) running).link.reply.map fun r => (r.status, r.payload.length)) =
    some (.ok, 23) := by decide +kernel

/-- A poll of the whole reply frame takes it, and one byte less leaves it (R172). -/
theorem test_poll_takes : (after (.poll ⟨32, .now⟩) (after (.identify 0 []) running)).link.reply.isNone = true := by decide +kernel
theorem test_poll_leaves : (after (.poll ⟨30, .now⟩) (after (.identify 0 []) running)).link.reply.isSome = true := by decide +kernel

/-- A poll that SOC_HOLD cuts after two bytes sends the sync byte and the status, and FF for the rest, and takes nothing (R175). -/
theorem test_poll_cut : (after (.poll ⟨32, ⟨1, 2⟩⟩) (after .socRestart (after (.identify 0 []) running))).pins.linkDo =
    0x5A :: 0x00 :: List.replicate 30 0xFF := by decide +kernel

/-- A frame that began while SOC_HOLD was asserted is ignored after the release as well (R167). -/
theorem test_begun_held : (after (.linkTransactionIgnored ⟨[0xA5, 1], ⟨1, 0⟩⟩)
    { running with pins := { running.pins with past := [⟨false, .idle, none⟩, ⟨true, .idle, none⟩] } }).pins.linkDo =
    [0xFF, 0xFF] := by decide +kernel

/-- A burst is read from the job's current address (R51). -/
theorem test_burst_address : (after .frBurstStart { running with reader := { readerAtPowerOn with
    current := some ⟨.scan, 4096, 1000, 232, none, 0⟩ } }).port.side = .burst (4096 + 768) 232 := by decide +kernel

/-- PRESENCE STATUS, VAULT CLAIM without presence, and an unknown slot are answered at once (R151, R131, R11). -/
theorem test_presence_status : ((after (.presenceStatus 0 []) present).link.reply.map (·.payload)) =
    some [1, 30, 2, 0, 0] := by decide +kernel
theorem test_slot_24 : ((after (.keyInfo 0 [24]) running).link.reply.map (·.status)) = some .badArgument := by
  decide +kernel

/-- Three attach timeouts in a row hold the SoC for good (R79). -/
theorem test_third_failure : (after .attachDeadlineExpiry { running with
    gate := { running.gate with state := .released, attach := some 100000, failures := 2 } }).gate.state = .faultHold := by
  decide +kernel

/-- A wrong CRC raises the bad-frame run (R170). -/
theorem test_bad_frame : (after (.badFrame [0xA5, 1, 0, 0, 0, 0, 0]) running).link.badRun = 1 := by decide +kernel

/-- CRED CHECK below the penalty deadline waits (R134). -/
theorem test_wait : ((after (.credCheck 0 [1, 0x61, 0x70])
    { running with vault := { running.vault with penalty := running.vault.penalty.setIfInBounds 0 (some 104) } }).link.reply.map
      fun r => (r.status, r.payload)) = some (.wait, [4, 0, 0, 0]) := by decide +kernel

/-- A count write of a slot that has been retired, or emptied, before its completion is not made, and its request is refused (log entry 46). -/
theorem test_count_of_retired : (after .storeWriteComplete { running with
    store := ⟨some ⟨.slotCount ⟨8, 0⟩, .replyCounted 8 [5] true⟩, []⟩ }).link.reply.map (·.status) = some .wrongState := by
  decide +kernel
theorem test_count_of_empty : (after .storeWriteComplete { running with
    store := ⟨some ⟨.slotCount ⟨23, 0⟩, .replyCounted 23 [5] true⟩, []⟩ }).link.reply.map (·.status) = some .slotEmpty := by
  decide +kernel

/-- An emptied slot begins another life, in which what its old place names is not found (R22, log entry 53). -/
theorem test_erase_ends_life : (((records.apply (.slotErase ⟨4, 0⟩)).apply (.slotPut 4 signing)).slotAt ⟨4, 0⟩,
    ((records.apply (.slotErase ⟨4, 0⟩)).apply (.slotPut 4 signing)).slotAt ⟨4, 1⟩) = (none, some signing) := by decide +kernel
theorem test_reset_ends_life : ((records.apply .ownerReset).slotPlace 7, (records.apply .ownerReset).slotPlace 4) =
    (⟨7, 1⟩, ⟨4, 0⟩) := by decide +kernel

set_option maxRecDepth 100000 in
/-- KEY SIGN and MAKE STATEMENT do not sign with a key that was created in their slot while their digest was computed (R118, R120, R124). -/
theorem test_sign_of_recreated : ([.signDigest ⟨4, 0⟩, .statementDigest ⟨4, 0⟩ [1]].map fun service =>
    let t := after .deBlockAbsorbed { digested .keySign service with kept := recreated }
    (t.link.reply.map (·.status), t.engine)) = [(some .slotEmpty, []), (some .slotEmpty, [])] := by decide +kernel

/-- Nor is a use counted on such a key (R119, R120). -/
theorem test_count_of_recreated :
    let t := after .storeWriteComplete { storing ⟨.slotCount ⟨4, 0⟩, .replyCounted 4 [5] true⟩ with kept := recreated }
    (t.link.reply.map (·.status), t.kept) = (some .slotEmpty, recreated) := by decide +kernel

/-- A second slot with a label that is taken by then is not created (R4, log entry 46). -/
theorem test_label_taken_at_write : (after .storeWriteComplete { running with
    store := ⟨some ⟨.slotPut 23 signing, .reply []⟩, []⟩ }).link.reply.map (·.status) = some .labelTaken := by
  decide +kernel

/-- A chunk that no longer follows its blob is not appended a second time (R20, log entry 46). -/
theorem test_chunk_twice : (after .storeWriteComplete { running with
    store := ⟨some ⟨.slotAppend ⟨6, 0⟩ 2 [3], .replyBlob 6 false⟩, []⟩ }).link.reply.map (·.status) = some .badArgument := by
  decide +kernel

/-! ## The hypotheses of the statements are met -/

/-- RequestsWithoutPayloadAnswerAndChangeNothing. -/
theorem witness_requests_without_payload :
    running.Hears 0 [] :=
  hears_running (by decide)

/-- ReactionReadShowsEveryEntry, at the last entry. -/
theorem witness_reaction_read :
    running.Hears 0 [] ∧ running.kept.reactions[7]? = some spareReaction ∧ running.reactions.fired[7]? = some false ∧
    running.reactions.counts[7]? = some 0 :=
  ⟨hears_running (by decide), rfl, rfl, rfl⟩

/-- RequestsWithoutPayloadAnswerAndChangeNothing, the clause of VAULT STATUS. -/
theorem witness_vault_status :
    running.Hears 0 [] ∧ running.vault.free = true :=
  ⟨hears_running (by decide), rfl⟩

/-- AttentionRequestsReadClearAndMask, every clause; masks 0 and FFF and the first value refused. -/
theorem witness_attention :
    running.Hears 0 [] ∧ running.Hears 0 (le16 (0 : BitVec 12).toNat) ∧ running.Hears 0 (le16 (0xFFF : BitVec 12).toNat) ∧
    (running.Hears 0 [0, 0x10] ∧ 4096 ≤ number [0, 0x10]) ∧ (running.Hears 0 [0] ∧ [(0 : Byte)].length ≠ 2) ∧
    ∃ t, exec (.powerOn true) running = .next t :=
  ⟨hears_running (by decide), hears_running (by decide), hears_running (by decide), ⟨hears_running (by decide), by decide⟩, ⟨hears_running (by decide), by decide⟩, _, rfl⟩

/-- ParametersAreClampedWrittenAndRead, for a parameter of the Boot Gate and one of the vault. -/
theorem witness_parameters :
    (running.Hears 0 [1, 61, 0, 0, 0] ∧ Param.ofCode 1 = some (.boot .attachLimit) ∧
      running.hasRight 0 (Param.boot .attachLimit).right = true) ∧
    (running.Hears 0 [0x10, 0, 0, 0, 0] ∧ Param.ofCode 0x10 = some (.vault .free) ∧
      running.hasRight 0 (Param.vault .free).right = true ∧ running.vault.free = true) ∧
    (running.Hears 0 [0x13] ∧ Param.ofCode 0x13 = some (.vault .forgive)) :=
  ⟨⟨hears_running (by decide), rfl, by decide +kernel⟩, ⟨hears_running (by decide), rfl, by decide +kernel, rfl⟩, hears_running (by decide), rfl⟩

/-- SlotsAreRead, the clauses of KEY EXPORT PUBLIC; slots 24 and 23. -/
theorem witness_slots_export :
    running.Hears 0 [24] ∧ (running.Hears 0 [23] ∧ running.kept.slot 23 = none) ∧
    (running.Hears 0 [5] ∧ running.kept.slot 5 = some secretSlot ∧ secretSlot.material.publicKey = none) ∧
    (running.Hears 0 [1] ∧ running.kept.slot 1 = some attestation ∧ attestation.material.publicKey = some key64) :=
  ⟨hears_running (by decide), ⟨hears_running (by decide), rfl⟩, ⟨hears_running (by decide), rfl, rfl⟩, hears_running (by decide), rfl, rfl⟩

/-- SlotsAreRead, the clauses of KEY INFO and BLOB READ; slot 23 and an offset at the end of the blob. -/
theorem witness_slots_info_and_blob :
    running.Hears 0 [23] ∧ (running.Hears 0 (6 :: (le16 3 ++ le16 65535)) ∧ running.kept.slot 6 = some blobSlot ∧
    blobSlot.material = .blob [1, 2, 3] ∧ inSet blobSlot.usage useReadBlob = true ∧ inSet blobSlot.answerSet 0 = true ∧
    running.ism.bindingMatches blobSlot.binding = true) :=
  ⟨hears_running (by decide), hears_running (by decide), rfl, rfl, rfl, rfl, rfl⟩

/-- A policy of class SYSTEM and of a kind with a usage, and the bytes that carry it. -/
def policyOf (kind : Nat) (usage : Byte) : Policy := ⟨1, kind, usage, 1, 0, 0, 0, [], [0x7a]⟩
def policyBytes (kind usage : Byte) : Bytes := [1, kind, usage, 1, 0, 0, 0, 0, 1, 0x7a]

theorem creatable_23 {kind : Nat} {usage : Byte} (h : (policyOf kind usage).wellFormed .system = true) :
    running.Creatable 23 0 (policyOf kind usage) .system :=
  ⟨by decide, rfl, by decide, by decide +kernel, h, rfl, by simpa [policyOf] using (by decide +kernel :
    running.kept.slotLabelFree [0x7a] = true)⟩

/-- CreatingRequestsCreateTheSlot, KEY GENERATE of a pair in slot 23. -/
theorem witness_creating_generate :
    running.Hears 0 (23 :: policyBytes 0 1) ∧ readSlotPolicy (23 :: policyBytes 0 1) = some (23, policyOf 0 1) ∧
    running.Creatable 23 0 (policyOf 0 1) .system ∧ KeyKind.ofCode (policyOf 0 1).kindCode = some .signingPair :=
  ⟨hears_running (by decide), by decide, creatable_23 (by decide), rfl⟩

/-- CreatingRequestsCreateTheSlot, KEY IMPORT of a public key. -/
theorem witness_creating_import :
    running.Hears 0 (23 :: (policyBytes 1 4 ++ key64)) ∧
    readImport (23 :: (policyBytes 1 4 ++ key64)) = some (23, policyOf 1 4, 0, key64) ∧
    running.Creatable 23 0 (policyOf 1 4) .system ∧ KeyKind.ofCode (policyOf 1 4).kindCode = some .verifyPublic ∧
    running.resetBegun = false :=
  ⟨hears_running (by decide), by decide +kernel, creatable_23 (by decide), rfl, rfl⟩

/-- CreatingRequestsCreateTheSlot, the first chunk of a blob. -/
theorem witness_creating_blob :
    running.Hears 0 (23 :: 0 :: 0 :: (policyBytes 3 32 ++ [5])) ∧
    takePolicy (policyBytes 3 32 ++ [5]) = some (policyOf 3 32, [5]) ∧ running.Creatable 23 0 (policyOf 3 32) .system ∧
    KeyKind.ofCode (policyOf 3 32).kindCode = some .blob ∧ running.resetBegun = false :=
  ⟨hears_running (by decide), by decide +kernel, creatable_23 (by decide), rfl, rfl⟩

/-- CreatingRequestsCreateTheSlot, KEY IMPORT of a wrapped key under slot 5. -/
theorem witness_creating_wrapped :
    running.Hears 0 (23 :: (policyBytes 2 8 ++ [5, 9])) ∧
    readImport (23 :: (policyBytes 2 8 ++ [5, 9])) = some (23, policyOf 2 8, 5, [9]) ∧
    running.Creatable 23 0 (policyOf 2 8) .system ∧ KeyKind.ofCode (policyOf 2 8).kindCode = some .secret ∧
    running.Usable 5 0 .secret useUnwrap secretSlot ∧ secretSlot.material = .secret (some key32) :=
  ⟨hears_running (by decide), by decide +kernel, creatable_23 (by decide), rfl, ⟨by decide, rfl, rfl, rfl, rfl, rfl, rfl, rfl⟩, rfl⟩

/-- ManagingRequestsWriteTheirSlot, every clause. -/
theorem witness_managing :
    running.Managed 4 0 signing ∧ running.Managed 6 0 blobSlot ∧ running.Managed 7 0 ownerSlot ∧ running.Managed 8 0 retiredSlot ∧
    running.Hears 0 (6 :: (le16 [(1 : Byte), 2, 3].length ++ [4])) ∧ running.Hears 0 [4, 1, 1, 2, 0, 0, 0] ∧
    readRestrict [4, 1, 1, 2, 0, 0, 0] = some (4, 1, 1, 2, 0, 0, []) ∧ running.Hears 0 [4] ∧ running.Hears 0 [8] ∧
    subset 1 signing.usage = true ∧ subset 1 signing.answerSet = true ∧ bindingFits 0 0 = true ∧ signing.binding = none ∧
    signing.useLimit = some 2 :=
  ⟨⟨by decide, rfl, by decide +kernel, by decide⟩, ⟨by decide, rfl, by decide +kernel, by decide⟩, ⟨by decide, rfl, by decide +kernel, fun _ => rfl⟩,
    ⟨by decide, rfl, by decide +kernel, by decide⟩, hears_running (by decide), hears_running (by decide), rfl, hears_running (by decide), hears_running (by decide), rfl, rfl, rfl, rfl, rfl⟩

/-- KeyUsesBeginTheirWork, every clause. -/
theorem witness_key_uses :
    running.Usable 4 0 .signingPair useSign signing ∧ signing.material = .pair (some key32) key64 ∧
    running.Hears 0 (4 :: 0 :: key32) ∧ running.Hears 0 [4, 1, 9] ∧ running.Usable 5 0 .secret useDerive secretSlot ∧
    secretSlot.material = .secret (some key32) ∧ running.Hears 0 [5, 9] ∧
    running.Usable 1 0 .signingPair useStatement attestation ∧
    running.Hears 0 (1 :: 0xFF :: 8 :: List.replicate 8 9) :=
  ⟨⟨by decide, rfl, rfl, rfl, rfl, rfl, rfl, rfl⟩, rfl, hears_running (by decide), hears_running (by decide), ⟨by decide, rfl, rfl, rfl, rfl, rfl, rfl, rfl⟩, rfl, hears_running (by decide),
    ⟨by decide, rfl, rfl, rfl, rfl, rfl, rfl, rfl⟩, hears_running (by decide)⟩

/-- ExtensionsAppendAndExtendTogether; chains 0 and 7. -/
theorem witness_extensions :
    running.Hears 0 (0 :: 0 :: ([] ++ key32)) ∧ running.Hears 0 (7 :: 1 :: ([9] ++ key32)) ∧
    (running.Hears 0 (7 :: 1 :: ([9] ++ [5])) ∧ running.ism.stage.number ≤ min (7 - 2) 3 ∧ running.ism.log.length < 36) :=
  ⟨hears_running (by decide), hears_running (by decide), hears_running (by decide), by decide, by decide⟩

/-- ReadChainsAndLogAnswer, every clause; a start at the end of the log and one beyond it. -/
theorem witness_read_chains_and_log :
    running.Hears 0 [0x80] ∧ (running.Hears 0 [0, 20] ∧ (0 : Byte).toNat ≤ running.ism.log.length) ∧ running.Hears 0 [0] ∧
    (running.Hears 0 [1, 1] ∧ running.ism.log.length < (1 : Byte).toNat) :=
  ⟨hears_running (by decide), ⟨hears_running (by decide), by decide⟩, hears_running (by decide), hears_running (by decide), by decide⟩

/-- AdvanceStageRaisesTheStage; the first and the last stage. -/
theorem witness_advance_stage :
    running.Hears 0 [0] ∧ Stage.ofNumber 0 = some .loader ∧ running.Hears 0 [3] ∧ Stage.ofNumber 3 = some .services :=
  ⟨hears_running (by decide), rfl, hears_running (by decide), rfl⟩

/-- TableWritesReplaceOneEntry, the clause of REQUESTER WRITE. -/
theorem witness_requester_write :
    running.Hears 0 [7, 1, 3, 7] ∧ running.hasRight 0 rightAdmin = true ∧
    readRequester [7, 1, 3, 7] = some (7, ⟨true, .services, 7⟩) :=
  ⟨hears_running (by decide), by decide +kernel, rfl⟩

/-- VerificationBeginsAndEndsInTheStore, the clause of the request, and ArmTrialAndConfirmImageHandTheirUpdate, every clause. -/
theorem witness_images :
    running.Hears 0 [] ∧ running.hasRight 0 rightUpdate = true ∧ running.kept.lifecycle = .field ∧ running.Hears 0 [0] ∧
    running.Hears 0 [3] ∧
    { records with staged := .verified fields0 (some []) }.staged = .verified fields0 (some []) ∧
    { records with staged := .trial fields0 (some []) }.staged = .trial fields0 (some []) ∧
    { records with staged := .verified fields1 none }.staged = .verified fields1 none ∧ fields0.line = 0 ∧
    fields1.line = 1 ∧
    ((storing ⟨.confirmBoot, .replyConfirm 0⟩).store.making = some ⟨.confirmBoot, .replyConfirm 0⟩ ∧
      (storing ⟨.confirmLine 1, .replyConfirm 1⟩).store.making = some ⟨.confirmLine 1, .replyConfirm 1⟩ ∧
      running.gate.selection = .idle) :=
  ⟨hears_running (by decide), by decide +kernel, rfl, hears_running (by decide), hears_running (by decide), rfl, rfl, rfl, rfl, rfl, rfl, rfl, rfl⟩

/-- VerificationBeginsAndEndsInTheStore, the clauses of the writes. -/
theorem witness_verification_writes :
    { running with store := ⟨some ⟨.stagedPut .verifying, .accept 0⟩, []⟩ }.store.making =
      some ⟨.stagedPut .verifying, .accept 0⟩ ∧
    { running with store := ⟨some ⟨.stagedPut (.verified fields1 none), .silent⟩, []⟩ }.store.making =
      some ⟨.stagedPut (.verified fields1 none), .silent⟩ ∧
    { running with store := ⟨some ⟨.stagedPut (.rejected none 0 .badLayout), .silent⟩, []⟩ }.store.making =
      some ⟨.stagedPut (.rejected none 0 .badLayout), .silent⟩ ∧
    running.gate.selection = .idle ∧ running.powered = true :=
  ⟨rfl, rfl, rfl, rfl, rfl⟩

theorem no_jobs_match (s : State) (h1 : s.gate.unplaced = []) (h2 : s.gate.unplacedScans = [])
    (h3 : s.image.unplaced = none) : s.JobsMatch :=
  ⟨by simp [h1], by simp [h2], by simp [h3]⟩

/-- A part whose verification has a job in progress, with or without a burst of it being read. -/
def verifying (bursting : Bool) : State := { running with
  kept := { records with staged := .verifying }
  image := ⟨some ⟨.segments, 0, 0, some 100000, none, 0, 0⟩, none⟩
  reader := { readerAtPowerOn with
    current := some ⟨.imageVerify, 0x801000, 4096, 4096, some key32, 0⟩, bursting := bursting } }

/-- AbortAndDeadlineEndTheVerification, both clauses, with a burst of the job being read and without; a deadline reached exactly. -/
theorem witness_abort_and_deadline :
    ((verifying false).JobsMatch ∧ (verifying true).JobsMatch ∧ (verifying false).Hears 0 [] ∧ (verifying true).Hears 0 [] ∧
      running.hasRight 0 rightUpdate = true ∧ (verifying true).kept.staged = .verifying) ∧
    ∃ v, (verifying true).image.verification = some v ∧ v.deadline = some 100000 ∧ 100000 ≤ running.uptime ∧
      (verifying true).powered = true :=
  ⟨⟨no_jobs_match _ rfl rfl rfl, no_jobs_match _ rfl rfl rfl,
    ⟨rfl, rfl, rfl, by decide, by decide, by decide +kernel⟩, ⟨rfl, rfl, rfl, by decide, by decide, by decide +kernel⟩, by decide +kernel, rfl⟩,
    _, rfl, rfl, by decide, rfl⟩

/-- StartsOfMeasurementEndTheBoot, the clause of REBOOT ROUTER. -/
theorem witness_reboot_router :
    running.Hears 0 [] ∧ running.hasRight 0 rightUpdate = true :=
  ⟨hears_running (by decide), by decide +kernel⟩

/-- StepRunsTheFrontCommand and IdleStepLetsTimePass, every clause. -/
theorem witness_steps :
    { running with pending := [.poll ⟨1, .now⟩] }.pending = [.poll ⟨1, .now⟩] ∧ running.pending = [] ∧ running.powered = true ∧
    State.reset.dueEvents = [] ∧
    { running with biu := { running.biu with window := some 100000 } }.dueEvents =
      [.presenceWindowTimeout, .debouncedRelease] ∧
    { running with powered := false }.powered = false :=
  ⟨rfl, rfl, rfl, by decide +kernel, by decide +kernel, rfl⟩

theorem reset_bounded : State.reset.LogBounded where
  jobs := by decide
  total := by decide
  measuring h := absurd h (by decide)
  selecting _ := ⟨rfl, rfl, by decide⟩
  reboot h := absurd h (by decide)
  trial := by decide
  heldBack _ h := nomatch h
  records := ⟨by decide, by decide, nofun⟩
  writes _ h := nomatch h
  manifest _ h := nomatch h

/-- StepKeepsThePins, StepKeepsTheLawOfChainsAndLog and StepKeepsTheLawsOfTheRecords, at reset. -/
theorem witness_pins_chains_and_records :
    State.reset.PinsFollow ∧ State.reset.ism.Lawful ∧ State.reset.JobsMatch ∧ State.reset.LogBounded ∧ State.reset.kept.OwnerLaw ∧ State.reset.kept.LabelLaw ∧
    State.reset.kept.AdminLaw ∧ ∃ t, step State.reset = .next t := by
  have hs : ∀ (i : Nat) k, State.reset.kept.slot i = some k → False := by
    intro i k h
    by_cases hi : i < 24 <;> simp [Records.slot, State.reset, State.volatileReset, factoryRecords, hi] at h
  have hc : ∀ (i : Nat) c, State.reset.kept.cred i = some c → False := by
    intro i c h
    by_cases hi : i < 16 <;> simp [Records.cred, State.reset, State.volatileReset, factoryRecords, hi] at h
  refine ⟨fun _ => ⟨rfl, rfl, rfl⟩, ⟨by decide, fun i e h => ?_, fun i e h => ?_, by decide⟩, no_jobs_match _ rfl rfl rfl, reset_bounded,
    fun _ => ⟨fun i k h => (hs i k h).elim, fun i c h => (hc i c h).elim⟩,
    ⟨fun i j k l h => (hs i k h).elim, fun i j c d h => (hc i c h).elim⟩, ⟨?_, 0, _, rfl, rfl, by decide⟩, _, rfl⟩
  · cases h
  · cases h
  · rintro q ⟨⟩
    exact ⟨rfl, rfl⟩

/-- StepKeepsCountsInRangeAndJobsMatched and OnlyTheStoreWritesRecords, at reset. -/
theorem witness_counts_and_jobs :
    State.reset.InRange ∧ State.reset.JobsMatch ∧ ∃ t, step State.reset = .next t := by
  refine ⟨⟨by decide, by decide, by decide, by decide, by decide, by decide, by decide, fun i n h => ?_, by decide⟩,
    no_jobs_match _ rfl rfl rfl, _, rfl⟩
  by_cases hi : i < 8 <;> simp [State.reset, State.volatileReset, hi] at h
  omega

/-- A context with a block ready. -/
def readyContext : Context := (Context.opened.give (List.replicate 64 0))
/-- An engine with both contexts ready. -/
def contested (mark : CtxId) : DigestEngine := ⟨readyContext, readyContext, mark, none⟩

/-- DigestEngineTakesBlocksInTurn, every clause. -/
theorem witness_digest_engine :
    ((contested .link).absorbing = none ∧ (contested .link).reader.blockReady = true ∧ (contested .link).link.blockReady = true) ∧
    ({ contested .link with reader := Context.cleared }.reader.blockReady = false) ∧
    ({ running with digest := (contested .link).takeBlock }.digest.absorbing = some ⟨.reader, false⟩ ∧
      (((contested .link).takeBlock.context .reader).absorb.state ≠ .finished) ∧ running.powered = true) :=
  ⟨⟨rfl, by decide +kernel, by decide +kernel⟩, by decide +kernel, by decide +kernel, by decide +kernel, rfl⟩

set_option maxRecDepth 100000 in
/-- KeyUsesAreCountedBeforeTheReply, every clause; counts that reach the limit, of a slot without one, and of an EMPTY slot, one created anew, and a RETIRED one. -/
theorem witness_key_uses_counted :
    ((digested .keySign (.signDigest ⟨4, 0⟩)).powered = true ∧
      (digested .keySign (.signDigest ⟨4, 0⟩)).digest.absorbing = some ⟨.link, false⟩ ∧
      (digested .keySign (.signDigest ⟨4, 0⟩)).digest.link.absorb.state = .finished ∧
      (digested .keySign (.signDigest ⟨4, 0⟩)).kept.slotAt ⟨4, 0⟩ = some signing ∧
      (digested .keySign (.signDigest ⟨4, 0⟩)).link.service = .signDigest ⟨4, 0⟩ ∧
      (digested .keyDerive (.deriveDigest ⟨5, 0⟩)).link.service = .deriveDigest ⟨5, 0⟩) ∧
    ({ serving .keySign (.signEngine ⟨4, 0⟩) with engine := [.sign 4 key32 key32] }.engine = [.sign 4 key32 key32] ∧
      (serving .keySign (.signEngine ⟨4, 0⟩)).link.service = .signEngine ⟨4, 0⟩ ∧
      (serving .makeStatement (.statementEngine ⟨1, 0⟩ [1])).link.service = .statementEngine ⟨1, 0⟩ [1]) ∧
    ((storing ⟨.slotCount ⟨4, 0⟩, .replyCounted 4 [5] true⟩).store.making = some ⟨.slotCount ⟨4, 0⟩, .replyCounted 4 [5] true⟩ ∧
      signing.state = .active ∧ signing.useLimit = some (signing.useCount + 1) ∧ secretSlot.useLimit = none ∧
      running.kept.slotAt ⟨23, 0⟩ = none ∧ recreated.slotAt ⟨4, 0⟩ = none ∧ recreated.slot 4 = some signing ∧ running.kept.slotAt ⟨8, 0⟩ = some retiredSlot ∧ retiredSlot.state = .retired ∧
      running.gate.selection = .idle) :=
  ⟨⟨rfl, by decide +kernel, by decide +kernel, rfl, rfl, rfl⟩, ⟨rfl, rfl, rfl⟩, rfl, rfl, rfl, rfl, rfl, rfl, rfl, rfl, rfl, rfl⟩

/-- DigestContextsComputeTheDigest, the clause with a hypothesis; a key below the block and one of the whole block. -/
theorem witness_digest_contexts :
    key32.length ≤ 64 ∧ key64.length ≤ 64 ∧ key64.length = 64 :=
  by decide

/-- FinishedDigestsGoOn, every clause; chains 2 and 7, and both forms of CRED CHANGE. -/
theorem witness_finished_digests :
    ((digested .extendData (.extendDigest 2 [])).LinkFinishes ∧ (digested .extendData (.extendDigest 7 [9])).LinkFinishes ∧
      (digested .extendData (.extendDigest 7 [9])).link.request = some ⟨.extendData, 0, []⟩) ∧
    ((digested .makeStatement (.statementDigest ⟨1, 0⟩ [1])).LinkFinishes ∧ running.kept.slotAt ⟨1, 0⟩ = some attestation) ∧
    ((digested .credEnroll (.enrolling (form 0 [5]))).LinkFinishes ∧ running.kept.findCred (form 0 [5]).label = none ∧
      running.kept.freeCred = some 3 ∧ running.kept.vault.claimed = true) ∧
    ((digested .provisionCredential (.provisioning ⟨[0x61], 0, 1, 0, 0, 0, [], [5]⟩)).LinkFinishes ∧
      running.kept.findCred [0x61] = some (0, passphrase) ∧ passphrase.isOwner = false) ∧
    ((digested .credChange (.changing ⟨0, 0⟩ true)).LinkFinishes ∧ (digested .credChange (.changing ⟨0, 0⟩ false)).LinkFinishes) ∧
    (running.kept.slotAt ⟨23, 0⟩ = none ∧ recreated.slotAt ⟨4, 0⟩ = none ∧ recreated.slot 4 = some signing ∧ running.kept.slotAt ⟨8, 0⟩ = some retiredSlot ∧ retiredSlot.state = .retired ∧
      attestation.state = .active ∧ (digested .keySign (.signDigest ⟨23, 0⟩)).LinkFinishes ∧
      (digested .keyDerive (.deriveDigest ⟨23, 0⟩)).LinkFinishes ∧
      { serving .keySign (.signEngine ⟨23, 0⟩) with engine := [.sign 23 key32 key32] }.engine = [.sign 23 key32 key32]) :=
  ⟨⟨digested_finishes _ _, digested_finishes _ _, rfl⟩, ⟨digested_finishes _ _, rfl⟩,
    ⟨digested_finishes _ _, by decide +kernel, by decide +kernel, rfl⟩, ⟨digested_finishes _ _, by decide +kernel, rfl⟩,
    ⟨digested_finishes _ _, digested_finishes _ _⟩, rfl, rfl, rfl, rfl, rfl, rfl, digested_finishes _ _, digested_finishes _ _, rfl⟩

/-- A job with a length left to read, in progress in a state. -/
def job (left : Nat) : Job := ⟨.scan, 0, 1000, left, some key32, 0⟩
def manifestJob (left : Nat) : Job := ⟨.imageVerify, 0x800000, 4096, left, none, 0⟩
def reading (j : Job) : State := { running with reader := { readerAtPowerOn with current := some j } }

/-- The same with a burst of it being read, or of it cancelled. -/
def bursting (j : Job) (cancelled : Bool) : State := { running with
  reader := { readerAtPowerOn with current := some j, bursting := true, cancelled := cancelled } }

theorem bursting_arrives (j : Job) (cancelled : Bool) (h : 0 < j.remaining ∧ j.remaining ≤ j.length) :
    (bursting j cancelled).BurstArrives j (List.replicate (min 256 j.remaining) 0) :=
  ⟨rfl, rfl, rfl, List.length_replicate, h.1, h.2⟩

/-- The same with its last burst given to a context that goes on. -/
def lastBurst : State := { bursting (job 232) false with
  digest := { digestAtPowerOn with reader := Context.opened } }

/-- ReaderBurstsAreGrantedAndRead, every clause; the first burst of a job of 1000 bytes, its last, of 232, a job of one burst of 256, and
the first, a later and the last but one of a manifest. -/
theorem witness_reader_bursts :
    ((reading (job 1000)).powered = true ∧ (reading (job 1000)).burstReady = true ∧ (reading (job 1000)).port.side = .idle ∧
      (reading (job 1000)).port.socWaiting = false ∧ (reading (job 1000)).reader.current = some (job 1000) ∧
      (reading (job 232)).burstReady = true) ∧
    ({ running with port := { running.port with side := .soc } }.port.side ≠ .idle) ∧
    ((bursting (job 1000) false).BurstArrives (job 1000) (List.replicate 256 0) ∧ (job 1000).isManifest = false ∧
      (bursting (job 1000) false).reader.cancelled = false ∧ lastBurst.BurstArrives (job 232) (List.replicate 232 0) ∧
      (lastBurst.burstContext (job 232)).state = .absorbing ∧
      (running.burstContext ⟨.scan, 0, 256, 256, none, 0⟩).state = .absorbing) ∧
    ((bursting (manifestJob 4096) false).BurstArrives (manifestJob 4096) (List.replicate 256 0) ∧
      (manifestJob 4096).isManifest = true ∧ 256 < (manifestJob 512).remaining ∧
      (bursting (manifestJob 512) false).BurstArrives (manifestJob 512) (List.replicate 256 0)) ∧
    ((bursting (job 232) true).BurstArrives (job 232) (List.replicate 232 0) ∧
      (bursting (job 232) true).reader.cancelled = true) :=
  ⟨⟨rfl, by decide +kernel, rfl, rfl, rfl, by decide +kernel⟩, by decide,
    ⟨bursting_arrives _ _ (by decide), rfl, rfl, ⟨rfl, rfl, rfl, rfl, by decide, by decide⟩, by decide, by decide⟩,
    ⟨bursting_arrives _ _ (by decide), rfl, by decide, bursting_arrives _ _ (by decide)⟩,
    bursting_arrives _ _ (by decide), rfl⟩

/-- The last block of a job's digest, of three bytes, and the digest that it completes. -/
def lastBlock : Context := (Context.opened.give [1, 2, 3]).finish
def measured : Bytes := lastBlock.absorb.result

/-- A part whose job in progress has been read, with its last block being absorbed. -/
def finishing (j : Job) (gate : BootGate) : State := { running with
  gate := gate
  reader := { readerAtPowerOn with current := some j }
  digest := { digestAtPowerOn with reader := lastBlock, absorbing := some ⟨.reader, false⟩ } }

theorem finishing_finishes (j : Job) (gate : BootGate) (h : j.remaining = 0) : (finishing j gate).JobFinishes j :=
  ⟨rfl, rfl, show lastBlock.absorb.state = .finished by decide +kernel, rfl, h, rfl⟩

theorem finishing_measures (j : Job) (gate : BootGate) : (finishing j gate).measuredDigest = measured := rfl

/-- A verification that has read its manifest, and a job of each of its two kinds that has been read. -/
def manifest0 : Manifest := ⟨fields0, [⟨4096, 4096, 1, measured⟩], key32, key64⟩
def verification : Verification := ⟨.segments, 0, 0, some 100000, some manifest0, 0, 0⟩
def segmentJob (expected : Bytes) : Job := ⟨.imageVerify, 0x801000, 4096, 0, some expected, 0⟩

/-- The last burst of a manifest job whose signed part is finished, or whose segment count is none of 1..8. -/
def manifestEnd (signed : Option Nat) (context : Context) : State := { bursting (manifestJob 256) false with
  image := ⟨some verification, none⟩
  reader := { (bursting (manifestJob 256) false).reader with signedLength := signed }
  digest := { digestAtPowerOn with reader := context } }

/-- The parts in which the outcome of a verification's work arrives. -/
def manifestRead : State := { finishing (manifestJob 0) running.gate with image := ⟨some verification, none⟩ }
def segmentRead (expected : Bytes) : State :=
  { finishing (segmentJob expected) running.gate with image := ⟨some verification, none⟩ }
def verdictComing : State := { running with
  engine := [.verify 0 key64 key32 key64], image := ⟨some verification, none⟩ }

set_option maxRecDepth 100000 in
/-- VerificationOutcomesAreActedOn, every clause; a signed part of 64 bytes, of the 3840 read, and one of 304, for 8 segments; a segment
that matches and one that does not. -/
theorem witness_verification_outcomes :
    (manifestRead.image.verification = some verification ∧ (manifestJob 0).isManifest = true ∧
      manifestRead.JobFinishes (manifestJob 0)) ∧
    ((manifestEnd (some 64) lastBlock.absorb).BurstArrives (manifestJob 256) (List.replicate 256 0) ∧
      (manifestEnd (some 64) lastBlock.absorb).reader.signedLength = some 64 ∧
      64 ≤ (manifestJob 256).length - (manifestJob 256).remaining ∧ 16 + 48 * 8 ≤ 3840 ∧
      (manifestEnd (some 64) lastBlock.absorb).digest.reader.state = .finished) ∧
    ((manifestEnd none Context.cleared).BurstArrives (manifestJob 256) (List.replicate 256 0) ∧
      (manifestEnd none Context.cleared).reader.signedLength = none ∧
      (manifestEnd none Context.cleared).digest.reader.state ≠ .finished) ∧
    (verdictComing.engine = .verify 0 key64 key32 key64 :: [] ∧ verdictComing.image.verification = some verification ∧
      verification.manifest = some manifest0) ∧
    ((segmentRead measured).JobFinishes (segmentJob measured) ∧ (segmentRead key32).JobFinishes (segmentJob key32) ∧
      measured ≠ key32) :=
  ⟨⟨rfl, rfl, ⟨rfl, rfl, show lastBlock.absorb.state = .finished by decide +kernel, rfl, rfl, rfl⟩⟩,
    ⟨⟨rfl, rfl, rfl, by decide +kernel, by decide, by decide⟩, rfl, by decide, by decide, by decide +kernel⟩,
    ⟨⟨rfl, rfl, rfl, by decide +kernel, by decide, by decide⟩, rfl, by decide⟩, ⟨rfl, rfl, rfl⟩,
    ⟨rfl, rfl, show lastBlock.absorb.state = .finished by decide +kernel, rfl, rfl, rfl⟩,
    ⟨rfl, rfl, show lastBlock.absorb.state = .finished by decide +kernel, rfl, rfl, rfl⟩, by decide +kernel⟩

/-- A measurement job that has been read, in a Boot Gate in MEASURING with some jobs left. -/
def measureJob (expected : Bytes) : Job := ⟨.bootMeasure, 4096, 4096, 0, some expected, 0⟩
def measuring (left : Nat) (trial : Bool) : BootGate := { gateAtPowerOn with
  selection := .idle, selected := some (.bank .a), jobsLeft := left, verdict := .matched
  booted := some ⟨[], 12, 8, trial⟩ }

/-- The same part under AUDIT. -/
def audited (s : State) : State := { s with kept := { s.kept with params := { s.kept.params with bootPolicy := .audit } } }

set_option maxRecDepth 100000 in
/-- BootMeasurementsAreRecordedAndEnd, every case; two jobs left and the last, with a match and a mismatch. -/
theorem witness_boot_measurements :
    ((finishing (measureJob measured) (measuring 2 false)).JobFinishes (measureJob measured) ∧
      (measureJob measured).purpose = .bootMeasure ∧ (measuring 2 false).state = .measuring ∧ 1 < (measuring 2 false).jobsLeft) ∧
    ((finishing (measureJob measured) (measuring 1 false)).JobFinishes (measureJob measured) ∧
      (measuring 1 false).jobsLeft = 1 ∧ (measuring 1 false).verdict = .matched ∧ (∀ i, Verdict.matched ≠ .mismatch i)) ∧
    ((finishing (measureJob key32) (measuring 1 false)).JobFinishes (measureJob key32) ∧ key32 ≠ measured ∧
      (audited (finishing (measureJob key32) (measuring 1 false))).kept.params.bootPolicy = .audit ∧
      (audited (finishing (measureJob key32) (measuring 1 false))).reader.current = some (measureJob key32) ∧
      records.params.bootPolicy = .strict ∧ (measuring 1 true).trialBooted = true ∧
      (measuring 1 false).trialBooted = false) :=
  ⟨⟨finishing_finishes _ _ rfl, rfl, rfl, by decide⟩, ⟨finishing_finishes _ _ rfl, rfl, rfl, fun _ h => by cases h⟩,
    finishing_finishes _ _ rfl, by decide +kernel, rfl, rfl, rfl, rfl, rfl⟩

/-- A scan job that has been read, in a round with some jobs left. -/
def scanJob (expected : Bytes) : Job := ⟨.scan, 8192, 4096, 0, some expected, 1⟩
def scanning (left : Nat) (mismatched : Bool) : BootGate :=
  { running.gate with scanRound := some ⟨left, [], mismatched⟩ }

set_option maxRecDepth 100000 in
/-- ScanVerdictsAreRecorded, every case; the last job of a round and the last but one, the first mismatch and a later one. -/
theorem witness_scan_verdicts :
    ((finishing (scanJob measured) (scanning 1 false)).JobFinishes (scanJob measured) ∧
      (scanJob measured).expected = some measured ∧ (scanJob measured).purpose = .scan ∧
      (scanning 1 false).scanRound = some ⟨1, [], false⟩) ∧
    ((finishing (scanJob key32) (scanning 2 false)).JobFinishes (scanJob key32) ∧ measured ≠ key32 ∧
      .holdSoc ∉ (finishing (scanJob key32) (scanning 2 false)).actionsOf
        ((finishing (scanJob key32) (scanning 2 false)).matching .scanMismatch 0)) ∧
    ((finishing (scanJob key32) (scanning 2 true)).JobFinishes (scanJob key32) ∧
      (scanning 2 true).scanRound = some ⟨2, [], true⟩) :=
  ⟨⟨finishing_finishes _ _ rfl, rfl, rfl, rfl⟩, ⟨finishing_finishes _ _ rfl, by decide +kernel, by decide +kernel⟩, finishing_finishes _ _ rfl, rfl⟩

/-- The part with HOLD_SOC, or HOLD_SOC and RECOVERY_NEXT, as the actions of a condition. -/
def holdsSoc (condition : Condition) (recovery : Bool) (s : State) : State := { s with kept := { s.kept with
  reactions := ((Vector.replicate 8 spareReaction).setIfInBounds 0 ⟨true, condition, none, .holdSoc, false⟩).setIfInBounds 1
    ⟨recovery, condition, none, .recoveryNext, false⟩ } }

/-- A press of 10 s. -/
def pressed10 (s : State) : State := { s with
  biu := { s.biu with button := .pressed, press := some ⟨90000, false, false⟩ } }

set_option maxRecDepth 100000 in
/-- HoldSocEndsTheBoot, every cause, with and without RECOVERY_NEXT, and where the SoC is held. -/
theorem witness_hold_soc :
    (.holdSoc ∈ (holdsSoc .linkSilence false running).actionsOf ((holdsSoc .linkSilence false running).matching .linkSilence 0) ∧
      .recoveryNext ∉
        (holdsSoc .linkSilence false running).actionsOf ((holdsSoc .linkSilence false running).matching .linkSilence 0) ∧
      reached ({ running.gate with silence := some 100000 } : BootGate).silence running.uptime = true) ∧
    (.holdSoc ∈ (holdsSoc .buttonHold true (pressed10 running)).actionsOf
        ((holdsSoc .buttonHold true (pressed10 running)).matching .buttonHold 0) ∧
      .recoveryNext ∈ (holdsSoc .buttonHold true (pressed10 running)).actionsOf
        ((holdsSoc .buttonHold true (pressed10 running)).matching .buttonHold 0) ∧
      (pressed10 running).biu.press = some ⟨90000, false, false⟩ ∧ 90000 + 10000 ≤ running.uptime) ∧
    (.holdSoc ∈ (holdsSoc .protectViolation false running).actionsOf
        ((holdsSoc .protectViolation false running).matching .protectViolation 0) ∧
      (holdsSoc .protectViolation false running).protectedTouch .eraseDevice = true ∧ running.port.soc = none) ∧
    (.holdSoc ∈ (holdsSoc .frameErrorBurst false running).actionsOf
        ((holdsSoc .frameErrorBurst false running).matching .frameErrorBurst 0) ∧
      { running.link with badRun := 7 }.badRun = 7 ∧ [(0 : Byte), 0] ≠ crcBytes [1, 0, 0, 0]) ∧
    (.holdSoc ∈ (holdsSoc .scanMismatch false (finishing (scanJob key32) (scanning 1 false))).actionsOf
        ((holdsSoc .scanMismatch false (finishing (scanJob key32) (scanning 1 false))).matching .scanMismatch 0) ∧
      key32 ≠ measured) ∧
    ({ running with store := ⟨some ⟨.recoveryNext true, .reactionWrite true⟩, []⟩ }.store.making =
      some ⟨.recoveryNext true, .reactionWrite true⟩ ∧ running.held = false) ∧
    (pressed10 { running with gate := gateAtPowerOn }).held = true :=
  ⟨⟨by decide +kernel, by decide +kernel, rfl⟩, ⟨by decide +kernel, by decide +kernel, rfl, by decide⟩, ⟨by decide +kernel, by decide +kernel, rfl⟩,
    ⟨by decide +kernel, rfl, by decide +kernel⟩, ⟨by decide +kernel, by decide +kernel⟩, ⟨rfl, rfl⟩, rfl⟩

/-- A policy of class OWNER. -/
def ownerPolicy : Policy := ⟨2, 0, 1, 1, 0, 0, 0, [], [0x7a]⟩

/-- GeneratedMaterialIsHandedToTheStore, both kinds and both requests, and a slot of class OWNER in a vault that is CLAIMED, UNCLAIMED or
being reset. -/
theorem witness_generated_material :
    ((serving .keyGenerate (.generating 23 (policyOf 0 1) false)).link.service = .generating 23 (policyOf 0 1) false ∧
      (serving .provisionSlot (.generating 3 (policyOf 2 8) true)).link.service = .generating 3 (policyOf 2 8) true ∧
      SlotClass.ofCode (policyOf 0 1).classCode = some .system ∧ SlotClass.ofCode (policyOf 2 8).classCode = some .system ∧
      KeyKind.ofCode (policyOf 0 1).kindCode = some .signingPair ∧ KeyKind.ofCode (policyOf 2 8).kindCode = some .secret) ∧
    (SlotClass.ofCode ownerPolicy.classCode = some .owner ∧ running.kept.vault.claimed = true ∧ running.resetBegun = false ∧
      (serving .keyGenerate (.generating 23 ownerPolicy false)).link.service = .generating 23 ownerPolicy false) ∧
    { records with vault := factoryVault }.vault.claimed = false ∧
    { running with store := ⟨some ⟨.ownerReset, .resetDone false⟩, []⟩ }.resetBegun = true :=
  ⟨⟨rfl, rfl, rfl, rfl, rfl, rfl⟩, ⟨rfl, rfl, rfl, rfl⟩, rfl, rfl⟩

/-- StoreTakesCompletesAndFailsWrites, every clause; a write whose checks hold, and one of a slot that is occupied. -/
theorem witness_store :
    { running with store := ⟨none, [⟨.lock, .silent⟩]⟩ }.store = ⟨none, [⟨.lock, .silent⟩]⟩ ∧
    (storing ⟨.slotErase ⟨4, 0⟩, .reply []⟩).store.making = some ⟨.slotErase ⟨4, 0⟩, .reply []⟩ ∧
    running.kept.recheck (.slotErase ⟨4, 0⟩) = .ok () ∧ running.kept.recheck (.slotPut 4 signing) = .error .slotOccupied ∧
    running.gate.selection = .idle ∧ running.powered = true :=
  ⟨rfl, rfl, rfl, rfl, rfl, rfl⟩

/-- KeyWritesCompleteAndAnswer, every clause; slot 23 free and slot 4 occupied, a label free and taken, a chunk that follows a blob of
three bytes and one that does not, and the unwrapping slot ACTIVE and EMPTY. -/
theorem witness_key_writes :
    ((storing ⟨.slotPut 23 newBlob, .replyBlob 23 false⟩).store.making = some ⟨.slotPut 23 newBlob, .replyBlob 23 false⟩ ∧
      newBlob.material = .blob [5] ∧ running.kept.slot 23 = none ∧ running.kept.slot 4 ≠ none ∧
      running.kept.slotLabelFree newBlob.label = true ∧ running.kept.slotLabelFree [0x73] = false ∧
      { newBlob with slotClass := .owner }.slotClass = .owner ∧
      { records with vault := factoryVault }.vault.claimed = false) ∧
    ((storing ⟨.slotAppend ⟨6, 0⟩ 3 [4], .replyBlob 6 false⟩).store.making = some ⟨.slotAppend ⟨6, 0⟩ 3 [4], .replyBlob 6 false⟩ ∧
      running.kept.slotAt ⟨6, 0⟩ = some blobSlot ∧ blobSlot.state = .active ∧ blobSlot.material = .blob [1, 2, 3]) ∧
    ((storing ⟨.slotRestrict ⟨4, 0⟩ 1 1 (some 1) none, .replyKeyInfo 4⟩).store.making =
        some ⟨.slotRestrict ⟨4, 0⟩ 1 1 (some 1) none, .replyKeyInfo 4⟩ ∧ running.kept.slotAt ⟨4, 0⟩ = some signing ∧
      signing.state = .active ∧ subset 1 signing.usage = true ∧ subset 1 signing.answerSet = true ∧
      signing.binding = none ∧ signing.useLimit = some 2 ∧ signing.useCount = 1) ∧
    ((storing ⟨.slotPut 23 newBlob, .countUnwrap ⟨5, 0⟩ []⟩).store.making = some ⟨.slotPut 23 newBlob, .countUnwrap ⟨5, 0⟩ []⟩ ∧
      running.kept.slotAt ⟨5, 0⟩ = some secretSlot ∧ secretSlot.state = .active ∧ newBlob.slotClass = .system ∧
      (∀ item ∈ (storing ⟨.slotPut 23 newBlob, .countUnwrap ⟨5, 0⟩ []⟩).store.waiting, item.op ≠ .ownerReset) ∧
      running.kept.slotAt ⟨22, 0⟩ = none ∧ recreated.slotAt ⟨4, 0⟩ = none ∧
      StoreOp.slot (.slotAppend ⟨6, 0⟩ 3 [4]) = some ⟨6, 0⟩) :=
  ⟨⟨rfl, rfl, rfl, by decide, by decide +kernel, by decide +kernel, rfl, rfl⟩, ⟨rfl, rfl, rfl, rfl⟩, ⟨rfl, rfl, rfl, rfl, rfl, rfl, rfl, rfl⟩,
    rfl, rfl, rfl, rfl, fun _ h => (List.not_mem_nil h).elim, rfl, rfl, rfl⟩

/-- UpdatesWriteTheirRecordsTogether, every clause; a limit that is reached and one that is not, and a slot RETIRED and EMPTY. -/
theorem witness_updates :
    records.slotAt ⟨4, 0⟩ = some signing ∧ signing.state = .active ∧ records.slotAt ⟨8, 0⟩ = some retiredSlot ∧ retiredSlot.state = .retired ∧
    records.slotAt ⟨23, 0⟩ = none ∧ signing.useLimit = some 2 ∧ signing.useCount + 1 = 2 ∧
    (records.slotAt ⟨5, 0⟩ = some secretSlot ∧ secretSlot.useLimit = none) ∧
    ({ records with slots := records.slots.setIfInBounds 23 (some { signing with useLimit := some 3 }) }.slotAt ⟨23, 0⟩ =
      some { signing with useLimit := some 3 } ∧ signing.useCount + 1 ≠ 3) ∧
    (records.slot 7 = some ownerSlot ∧ ownerSlot.slotClass = .owner ∧ records.slot 0 = none) ∧
    (records.cred 1 = some guarded ∧ guarded.credClass = .owner) ∧
    (records.cred 0 = some passphrase ∧ passphrase.credClass = .factory [9] false ∧ records.cred 15 = none) ∧
    { records with staged := .trial fields0 (some []) }.staged = .trial fields0 (some []) ∧
    { records with staged := .verified fields1 none }.staged = .verified fields1 none :=
  ⟨rfl, rfl, rfl, rfl, rfl, rfl, rfl, ⟨rfl, rfl⟩, ⟨rfl, by decide⟩, ⟨rfl, rfl, rfl⟩, ⟨rfl, rfl⟩, ⟨rfl, rfl, rfl⟩, rfl, rfl⟩

/-- PowerKeepsTheRecordsAndImposesPenalties, the clauses with hypotheses. -/
theorem witness_power :
    running.powered = true ∧ { running with powered := false }.powered = false ∧ 1 ≤ running.kept.vault.base ∧
    1 ≤ running.kept.vault.cap :=
  ⟨rfl, rfl, by decide, by decide⟩

/-- ManufactureReleasesWithoutMeasurement. -/
theorem witness_manufacture :
    (selecting { records with lifecycle := .manufacture }).gate.selection = .awaiting false true ∧
    (selecting { records with lifecycle := .manufacture }).gateWritesDone = true ∧
    (selecting { records with lifecycle := .manufacture }).biu.button ≠ .undetermined ∧
    { records with lifecycle := .manufacture }.staged ≠ .verifying :=
  ⟨rfl, rfl, by decide, by decide⟩

/-- A trial selection whose write is being made. -/
def trying (f : ImageFields) (regions : List Region) : State := { running with
  kept := { records with staged := .armed f (some regions), selector := ⟨.a, 1⟩ }
  gate := { gateAtPowerOn with selection := .trialWrite }
  store := ⟨some ⟨.trialTry, .trialSelected⟩, []⟩ }

/-- BankSelectionTakesTheFirstStepThatHolds, every clause; R above 0 and R = 0 with RECOVERY_NEXT. -/
theorem witness_bank_selection :
    ((selecting records).gate.selection = .awaiting false true ∧ (selecting records).gateWritesDone = true ∧
      (selecting records).biu.button ≠ .undetermined ∧ records.lifecycle = .field ∧
      records.layout = some ⟨0x800000, 0x400000⟩ ∧ (selecting records).reader.entries = [] ∧
      (selecting records).image.unplaced = none ∧ (selecting records).gate.scanRound = none) ∧
    { records with recoveryNext := true }.recoveryNext = true ∧
    (records.recoveryNext = false ∧ (selecting records).biu.button ≠ .pressed) ∧
    ((selecting { records with layout := some ⟨0x800000, 0⟩, recoveryNext := true }).kept.layout = some ⟨0x800000, 0⟩ ∧
      { records with layout := some ⟨0x800000, 0⟩, recoveryNext := true }.recoveryNext = true) ∧
    ({ records with staged := .armed fields0 (some []), selector := ⟨.a, 1⟩ }.staged.onTrial = true) ∧
    ({ records with staged := .trial fields0 (some []) }.selector.tries = 0 ∧
      (selecting { records with staged := .trial fields0 (some []) }).gate.state = .measuring) ∧
    (records.staged.onTrial = false ∧ (records.golden records.selector.active).valid = true ∧
      (records.golden records.selector.active).regions.any (·.measure) = true) ∧
    ((trying fields0 [⟨4096, 4096, key32, true, false⟩]).gate.selection = .trialWrite ∧
      (trying fields0 [⟨4096, 4096, key32, true, false⟩]).store.making = some ⟨.trialTry, .trialSelected⟩ ∧
      (trying fields0 [⟨4096, 4096, key32, true, false⟩]).kept.staged =
        .armed fields0 (some [⟨4096, 4096, key32, true, false⟩]) ∧
      (trying fields0 [⟨4096, 4096, key32, true, false⟩]).reader.entries = [] ∧
      (trying fields0 [⟨4096, 4096, key32, true, false⟩]).image.unplaced = none ∧
      (trying fields0 [⟨4096, 4096, key32, true, false⟩]).gate.scanRound = none) :=
  ⟨⟨rfl, rfl, by decide, rfl, rfl, rfl, rfl, rfl⟩, rfl, ⟨rfl, by decide⟩, ⟨rfl, rfl⟩, rfl, ⟨rfl, rfl⟩, ⟨rfl, rfl, rfl⟩,
    rfl, rfl, rfl, rfl, rfl, rfl⟩

/-- The part in another state of the Boot Gate. -/
def inGate (gate : BootGate) : State := { running with gate := gate }

/-- FailedAttemptsHoldTheSoc, every cause; a deadline reached exactly. -/
theorem witness_failed_attempts :
    (reached (inGate { gateAtPowerOn with state := .released, attach := some 100000 }).gate.attach 100000 = true) ∧
    (reached (inGate { gateAtPowerOn with state := .attached, complete := some 100000 }).gate.complete 100000 = true) ∧
    (inGate { gateAtPowerOn with state := .released }).gate.state = .released ∧ running.powered = true :=
  ⟨rfl, rfl, rfl, rfl⟩

/-- StartsOfMeasurementEndTheBoot, every clause. -/
theorem witness_starts_of_measurement :
    (reached (inGate { gateAtPowerOn with dwell := some 100000 }).gate.dwell 100000 = true ∧ running.gate.state = .running) ∧
    (inGate gateAtPowerOn).held = true ∧
    ((inGate { running.gate with rebootPending := true, reboot := some 100000 }).held = false ∧
      reached (inGate { running.gate with rebootPending := true, reboot := some 100000 }).gate.reboot 100000 = true) ∧
    ({ linkAtPowerOn with state := .ready, reply := some ⟨.ok, 1, 0, []⟩ }.reply = some ⟨.ok, 1, 0, []⟩ ∧
      (Reply.frame ⟨.ok, 1, 0, []⟩).length ≤ 8) :=
  ⟨⟨rfl, rfl⟩, rfl, ⟨rfl, rfl⟩, rfl, by decide +kernel⟩

/-- A part whose scan timer has run out, with a set booted. -/
def scanning0 (set : GoldenSet) : State :=
  inGate { running.gate with booted := some ⟨set.regions, set.epoch, set.build, false⟩, scanTimer := some ⟨1, 100000⟩ }

/-- SilenceAndScanTimersRunOut, every clause; a set with a region to scan and one without. -/
theorem witness_timers :
    (reached (inGate { running.gate with silence := some 100000 }).gate.silence 100000 = true ∧
      .holdSoc ∉ running.actionsOf (running.matching .linkSilence 0)) ∧
    ((scanning0 goldenSet).gate.scanTimer = some ⟨1, 100000⟩ ∧ 100000 ≤ running.uptime ∧ (scanning0 goldenSet).JobsMatch ∧
      (scanning0 goldenSet).gate.booted = some ⟨goldenSet.regions, 11, 7, false⟩ ∧
      (scanning0 goldenSet).scanJobs = [⟨.scan, 8192, 4096, 4096, some key32, 1⟩] ∧
      (scanning0 { goldenSet with regions := [] }).scanJobs = []) :=
  ⟨⟨rfl, by decide +kernel⟩, rfl, by decide, no_jobs_match _ rfl rfl rfl, rfl, rfl, rfl⟩

/-- ButtonHoldFiresEveryMatchingEntry; the factory entry matches. -/
theorem witness_button_hold :
    { running.biu with button := .pressed, press := some ⟨90000, false, false⟩ }.press = some ⟨90000, false, false⟩ ∧
    90000 + 10000 ≤ running.uptime ∧ .holdSoc ∉ running.actionsOf (running.matching .buttonHold 0) ∧
    running.matching .buttonHold 0 ≠ [] ∧ .ownerReset ∈ running.actionsOf (running.matching .buttonHold 0) ∧
    { running with kept := { records with reactions := Vector.replicate 8 spareReaction } }.matching .buttonHold 0 = [] :=
  ⟨rfl, by decide, by decide +kernel, by decide +kernel, by decide +kernel, by decide +kernel⟩

/-- ProtectedWritesAreDroppedAndCounted, every clause; the last block of the recovery region. -/
theorem witness_protected_writes :
    factoryRecords.layout = none ∧ records.layout = some ⟨0x800000, 0x400000⟩ ∧
    (FlashCommand.program 0x13FFFFF = .program 0x13FFFFF ∧ 0x13FFFFF - 0x13FFFFF % 256 + 256 = 0x1400000) ∧
    (running.powered = true ∧ running.held = false ∧ running.port.soc = none ∧
      running.protectedTouch (.program 0x13FFFFF) = true ∧ running.protectedTouch (.program 0x1400000) = false ∧
      .holdSoc ∉ running.actionsOf (running.matching .protectViolation 0)) :=
  ⟨rfl, rfl, ⟨rfl, rfl⟩, rfl, rfl, rfl, by decide +kernel, by decide +kernel, by decide +kernel⟩

/-- SocTransactionsAreForwardedAndEnd, every clause. -/
theorem witness_soc_transactions :
    (running.held = false ∧ running.port.soc = none ∧ running.protectedTouch (.program 0x1400000) = false) ∧
    ({ running.port with soc := some ⟨.status, .waiting [.plain]⟩ }.soc = some ⟨.status, .waiting [.plain]⟩ ∧
      running.port.side = .idle) ∧
    { running.port with soc := some ⟨.status, .forwarded [.plain]⟩ }.soc = some ⟨.status, .forwarded [.plain]⟩ ∧
    (∀ accesses, SocStanding.dropped ≠ .forwarded accesses) :=
  ⟨⟨rfl, rfl, by decide +kernel⟩, ⟨rfl, rfl⟩, rfl, fun _ h => by cases h⟩

/-- SocTransactionsAreForwardedAndEnd, the clauses of reads; reads that end where their view ends, and reads one byte beyond. -/
theorem witness_remap :
    records.layout = some ⟨0x800000, 0x400000⟩ ∧ running.port.mapping = some ⟨.bank .a, .b⟩ ∧
    (⟨.recovery, .b⟩ : Mapping).booted = .recovery ∧ 0x7FFFFF + 1 ≤ 0x800000 ∧ 0x3FFFFF + 1 ≤ 0x400000 ∧
    (0x400000 ≤ 0x400000 ∧ 0x400000 + 0x400000 ≤ 0x800000) ∧ (0x800000 ≤ 0xFFFFFF ∧ 0xFFFFFF + 1 ≤ 2 * 0x800000) ∧
    (0x7FFFFF < 0x800000 ∧ 0x800000 < 0x7FFFFF + 2 ∧ 0x7FFFFF + 2 ≤ 2 * 0x800000) ∧
    (0xFFFFFF < 2 * 0x800000 ∧ 2 * 0x800000 < 0xFFFFFF + 2) :=
  ⟨rfl, rfl, rfl, by decide, by decide, by decide, by decide, by decide, by decide⟩

/-- A part in MEASURING whose last transaction began before the hold, in a moment of the link. -/
def cut (m : LinkMoment) : State := { running with
  gate := gateAtPowerOn, pins := { running.pins with past := [⟨true, .idle, none⟩, m] } }

/-- IgnoredAndOverrunFramesLeaveTheRequest, every clause: a transaction in a hold, one begun in a hold that has ended, one cut by a hold
with its first byte and after its last, and frames begun while SERVING. -/
theorem witness_ignored_and_overrun :
    ((inGate gateAtPowerOn).whenBegan .now = some (inGate gateAtPowerOn).moment ∧ (inGate gateAtPowerOn).moment.held = true) ∧
    ({ running with pins := { running.pins with past := [⟨false, .idle, none⟩, ⟨true, .idle, none⟩] } }.whenBegan ⟨1, 0⟩ =
      some ⟨true, .idle, none⟩) ∧
    (running.whenBegan .now = some ⟨false, .idle, none⟩ ∧ running.heldSince .now = false) ∧
    ((cut ⟨false, .idle, none⟩).whenBegan ⟨1, 0⟩ = some ⟨false, .idle, none⟩ ∧
      (cut ⟨false, .idle, none⟩).heldSince ⟨1, 0⟩ = true ∧ 0 ≤ [(1 : Byte)].length + 1 ∧
      (cut ⟨false, .idle, none⟩).heldSince ⟨1, 2⟩ = true ∧ 2 ≤ [(1 : Byte)].length + 1) ∧
    ((serving .keySign (.signEngine ⟨4, 0⟩)).whenBegan .now = some ⟨false, .serving, none⟩ ∧
      (serving .keySign (.signEngine ⟨4, 0⟩)).heldSince .now = false ∧
      (cut ⟨false, .serving, none⟩).whenBegan ⟨1, 0⟩ = some ⟨false, .serving, none⟩) :=
  ⟨⟨rfl, rfl⟩, rfl, ⟨rfl, rfl⟩, ⟨rfl, rfl, by decide, rfl, by decide⟩, rfl, rfl, rfl⟩

/-- FramesThatFailAreRefused, every clause; the run at 0 and at 7, an empty body of four bytes, and limits reached exactly. -/
theorem witness_frames_that_fail :
    (running.held = false ∧ running.link.state = .idle ∧ running.link.badRun ≠ 7 ∧ [(0 : Byte), 0] ≠ crcBytes [1, 0, 0, 0]) ∧
    Req.ofCode 0xFF = none ∧ (0 : Nat) ≠ [(1 : Byte)].length ∧
    (1000 + 10 * (1024 + 7) ≤ 11310 ∧ 1000 + 10 * (min 1024 (number (slice 2 2 [1, 0, 64, 0])) + 7) ≤ 1710) ∧
    ({ running with link := { linkAtPowerOn with badRun := 7 } }.link.badRun = 7 ∧
      .holdSoc ∉ running.actionsOf (running.matching .frameErrorBurst 0) ∧
      (0 ≠ [(1 : Byte)].length ∨ 1024 < 0) ∧ frameLimit (0xA5 :: [1]) ≤ 11310) :=
  ⟨⟨rfl, rfl, by decide, by decide +kernel⟩, rfl, by decide, ⟨by decide, by decide +kernel⟩, rfl, by decide +kernel, by decide, by decide +kernel⟩

/-- PollTakesTheReplyWhole, every clause: a reply READY, none, and polls in a hold and cut by one with their first byte and after their last. -/
theorem witness_poll :
    ({ running with link := { linkAtPowerOn with state := .ready, reply := some ⟨.ok, 1, 0, []⟩ } }.whenBegan .now =
      some ⟨false, .ready, some ⟨.ok, 1, 0, []⟩⟩) ∧
    (running.whenBegan .now = some ⟨false, .idle, none⟩ ∧ running.heldSince .now = false ∧ running.powered = true) ∧
    ((inGate gateAtPowerOn).whenBegan .now = some (inGate gateAtPowerOn).moment ∧ (inGate gateAtPowerOn).moment.held = true) ∧
    ((cut ⟨false, .ready, some ⟨.ok, 1, 0, []⟩⟩).whenBegan ⟨1, 0⟩ = some ⟨false, .ready, some ⟨.ok, 1, 0, []⟩⟩ ∧
      (cut ⟨false, .ready, some ⟨.ok, 1, 0, []⟩⟩).heldSince ⟨1, 8⟩ = true ∧ 8 ≤ 8) :=
  ⟨rfl, ⟨rfl, rfl, rfl⟩, ⟨rfl, rfl⟩, rfl, rfl, by decide⟩

/-- ChecksFourToSixRefuseInOrder, every clause; identities 8 and 7. -/
theorem witness_checks_four_to_six :
    7 < (8 : Byte).toNat ∧ (∃ r, running.requester 7 = some r ∧ r.enabled = false) ∧
    (∃ r, { running with ism := { ismAtStart with stage := .system } }.requester 1 = some r ∧ r.enabled = true ∧
      r.ceiling.number < Stage.number .system) ∧
    (running.Hears 1 [] ∧ running.hasRight 1 rightUpdate = false) ∧ (inGate gateAtPowerOn).held = true ∧
    (serving .keySign (.signEngine ⟨4, 0⟩)).link.state ≠ .idle :=
  ⟨by decide, ⟨_, rfl, rfl⟩, ⟨_, rfl, rfl, by decide⟩,
    ⟨⟨rfl, rfl, rfl, by decide, by decide, by decide +kernel⟩, by decide +kernel⟩, rfl, by decide⟩

/-- The same part with every slot suspended. -/
def suspendedAll : State := { running with keys := { running.keys with suspended := Vector.replicate 24 true } }
/-- The same part with a binding of slot 4 that matches no chain. -/
def unbound : State := { running with kept := { records with
  slots := records.slots.setIfInBounds 4 (some { signing with binding := some ⟨1, key32⟩ }) } }

set_option maxRecDepth 100000 in
/-- SlotsAreRead and KeyUsesBeginTheirWork: a slot that fails at each step of R10, and the first failure of the steps that follow. -/
theorem witness_first_checks_of_a_slot :
    (running.slotFailure 24 0 signRow = some .badArgument ∧ running.slotFailure 23 0 signRow = some .slotEmpty ∧
      running.slotFailure 5 0 signRow = some .badArgument ∧ running.slotFailure 8 0 signRow = some .wrongState ∧
      running.slotFailure 1 0 signRow = some .notPermitted ∧ suspendedAll.slotFailure 4 0 signRow = some .slotSuspended ∧
      unbound.slotFailure 4 0 signRow = some .bindingMismatch ∧ running.slotFailure 4 0 signRow = none) ∧
    (running.slotFailure 8 0 exportRow = none ∧ running.slotFailure 6 0 exportRow = some .badArgument) ∧
    (running.slotFailure 23 0 blobRow = some .slotEmpty ∧ suspendedAll.slotFailure 6 0 blobRow = none) ∧
    running.slotFailure 4 0 deriveRow = some .badArgument ∧ running.slotFailure 5 0 deriveRow = none ∧
    running.slotFailure 4 0 statementRow = some .notPermitted ∧ running.slotFailure 1 0 statementRow = none ∧
    running.slotFailure 7 0 authorityRow = none ∧ suspendedAll.slotFailure 7 0 authorityRow = some .slotSuspended :=
  by decide +kernel

/-- SlotsAreRead, a payload of another length and an offset above the length by one. -/
theorem witness_slots_refused :
    (running.Hears 0 [] ∧ ([] : Bytes).length ≠ 1 ∧ ([] : Bytes).length ≠ 5) ∧ running.Hears 0 [24] ∧
    (running.Hears 0 (6 :: (le16 4 ++ le16 0)) ∧ running.slotFailure 6 0 blobRow = none ∧
      running.kept.slot 6 = some blobSlot ∧ blobSlot.material = .blob [1, 2, 3] ∧ [1, 2, 3].length < 4) :=
  ⟨⟨hears_running (by decide), by decide, by decide⟩, hears_running (by decide), hears_running (by decide), by decide +kernel, rfl, rfl, by decide⟩

/-- KeyUsesBeginTheirWork, the fields of the request: 31 bytes of a digest, 1001 of data, no context, and a nonce of 7 bytes. -/
theorem witness_uses_refused :
    (suspendedAll.Hears 0 [4, 1, 9] ∧ [(1 : Byte), 9].head? = some 1) ∧ running.Hears 0 [4] ∧
    (running.Hears 0 [5, 0, 0] ∧ 2 ≤ [(0 : Byte), 0].length) ∧
    (running.Hears 0 (4 :: 0 :: List.replicate 31 0) ∧ (List.replicate 31 (0 : Byte)).length ≠ 32) ∧
    (running.Hears 0 (4 :: 1 :: List.replicate 1001 0) ∧ 1000 < (List.replicate 1001 (0 : Byte)).length) ∧ running.Hears 0 [5] ∧
    (running.Hears 0 (1 :: 0 :: 7 :: List.replicate 7 0) ∧ (7 : Byte).toNat < 8) :=
  ⟨⟨⟨rfl, rfl, rfl, by decide, by decide, by decide +kernel⟩, rfl⟩, hears_running (by decide), ⟨hears_running (by decide), by decide⟩, ⟨hears_running (by decide +kernel), by decide +kernel⟩,
    ⟨hears_running (by decide +kernel), by decide +kernel⟩, hears_running (by decide), hears_running (by decide +kernel), by decide⟩

/-- CreatingRequestsCreateTheSlot, the refusals: each of the checks 1 to 5 of R17, another kind, no chunk, and an unwrapping slot of another kind. -/
theorem witness_creating_refused :
    (running.hasRight 0 rightAdmin = true ∧ running.Hears 0 (4 :: policyBytes 0 1) ∧
      readSlotPolicy (4 :: policyBytes 0 1) = some (4, policyOf 0 1) ∧
      running.createFailure 4 0 (policyOf 0 1) = some .slotOccupied) ∧
    (running.createFailure 24 0 (policyOf 0 1) = some .badArgument ∧
      running.createFailure 3 0 { policyOf 0 1 with classCode := 0 } = some .notPermitted ∧
      running.createFailure 23 0 { policyOf 0 1 with classCode := 0 } = some .badArgument ∧
      running.createFailure 23 1 (policyOf 0 1) = some .notPermitted ∧
      running.createFailure 23 0 (policyOf 0 8) = some .badArgument ∧
      running.createFailure 23 0 { policyOf 0 1 with label := [0x73] } = some .labelTaken) ∧
    (running.Hears 0 (23 :: policyBytes 1 4) ∧ readSlotPolicy (23 :: policyBytes 1 4) = some (23, policyOf 1 4) ∧
      running.Creatable 23 0 (policyOf 1 4) .system ∧ KeyKind.ofCode (policyOf 1 4).kindCode = some .verifyPublic) ∧
    (running.Hears 0 (23 :: policyBytes 3 32) ∧ readImport (23 :: policyBytes 3 32) = some (23, policyOf 3 32, 0, []) ∧
      running.Hears 0 (23 :: 0 :: 0 :: policyBytes 3 32) ∧ takePolicy (policyBytes 3 32) = some (policyOf 3 32, []) ∧
      running.Creatable 23 0 (policyOf 3 32) .system ∧ KeyKind.ofCode (policyOf 3 32).kindCode = some .blob) ∧
    (running.Hears 0 (23 :: (policyBytes 2 8 ++ [4, 9])) ∧
      readImport (23 :: (policyBytes 2 8 ++ [4, 9])) = some (23, policyOf 2 8, 4, [9]) ∧
      running.Creatable 23 0 (policyOf 2 8) .system ∧ running.slotFailure 4 0 unwrapRow = some .badArgument ∧
      readImport (23 :: (policyBytes 2 8 ++ [5])) = some (23, policyOf 2 8, 5, []) ∧ running.slotFailure 5 0 unwrapRow = none) :=
  ⟨⟨by decide +kernel, hears_running (by decide), by decide +kernel, by decide +kernel⟩, by decide +kernel, ⟨hears_running (by decide), by decide +kernel, creatable_23 (by decide), rfl⟩,
    ⟨hears_running (by decide), by decide +kernel, hears_running (by decide), by decide +kernel, creatable_23 (by decide), rfl⟩, hears_running (by decide), by decide +kernel, creatable_23 (by decide), by decide +kernel, by decide +kernel, by decide +kernel⟩

/-- ManagingRequestsWriteTheirSlot, the refusals: of the slot, of a RETIRED slot, of each widening, and of a later chunk. -/
theorem witness_managing_refused :
    (running.Hears 0 [24, 1, 1, 0, 0, 0, 0] ∧ readRestrict [24, 1, 1, 0, 0, 0, 0] = some (24, 1, 1, 0, 0, 0, []) ∧
      running.manageFailure 24 0 = some .badArgument ∧ running.manageFailure 23 0 = some .slotEmpty ∧
      running.manageFailure 1 0 = some .notPermitted ∧ running.manageFailure 4 1 = some .notPermitted) ∧
    (running.manageFailure 8 0 = none ∧ running.kept.slot 8 = some retiredSlot ∧ retiredSlot.state = .retired) ∧
    (running.manageFailure 4 0 = none ∧ running.kept.slot 4 = some signing ∧ signing.state = .active ∧
      readRestrict [4, 3, 1, 0, 0, 0, 0] = some (4, 3, 1, 0, 0, 0, []) ∧ inSet 3 1 = true ∧ inSet signing.usage 1 = false ∧
      signing.useLimit = some 2 ∧ 2 < 3 ∧ bindingFits 3 0 = false ∧
      unbound.kept.slot 4 = some { signing with binding := some ⟨1, key32⟩ }) ∧
    ((running.hasRight 0 rightAdmin = true ∧ running.Hears 0 (6 :: (le16 4 ++ [1]))) ∧
      running.appendFailure 6 0 4 [1] = some .badArgument ∧ running.appendFailure 2 0 4 [1] = some .slotEmpty ∧
      running.appendFailure 1 0 4 [1] = some .badArgument) ∧ ∃ t, exec .storeWriteStart running = .next t :=
  ⟨⟨hears_running (by decide), rfl, by decide +kernel, by decide +kernel, by decide +kernel, by decide +kernel⟩, ⟨by decide +kernel, rfl, rfl⟩, ⟨by decide +kernel, rfl, rfl, rfl, by decide +kernel, by decide +kernel, rfl, by decide, rfl, rfl⟩,
    ⟨⟨by decide +kernel, hears_running (by decide)⟩, by decide +kernel, by decide +kernel, by decide +kernel⟩, _, rfl⟩

/-- The same part with a record 0 that identity 0 may not use, and a record 2 under a seal that matches no chain. -/
def guardedAll : State := { running with kept := { records with
  creds := (records.creds.setIfInBounds 0 (some { passphrase with answerSet := 2 })).setIfInBounds 2
    (some { unguarded with sealing := some ⟨1, key32⟩ }) } }

set_option maxRecDepth 100000 in
/-- CredentialRequestsChargeRetrieveAndChange and OwnerRequestsEnrolClaimRemoveAndReset, the refusals of R128: no label, no record, kind, length, answer set, seal, right. -/
theorem witness_credentials_refused :
    (running.vault.free = true ∧ running.Hears 0 [1, 0x63, 5] ∧
      running.credFailure 0 [] (fun _ => true) false false = some .badArgument ∧
      running.credFailure 0 [0x7a] (fun _ => true) false false = some .badArgument ∧
      running.credFailure 0 [0x63] (· == .verifier) true false = some .badArgument) ∧
    (guardedAll.Hears 0 [1, 0x61, 5] ∧ guardedAll.credFailure 0 [0x61] (· == .verifier) true false = some .notPermitted) ∧
    (guardedAll.Hears 0 [1, 0x63] ∧ guardedAll.credFailure 0 [0x63] (· == .secret) true true = some .bindingMismatch) ∧
    (running.Hears 0 [1, 0x61, 0, 0] ∧ running.credFailure 0 [0x61] (changeFits [] []) true false = some .badArgument) ∧
    (running.Hears 1 ([1, 0x63, 8] ++ List.replicate 8 5 ++ [0]) ∧
      running.credFailure 1 [0x63] (changeFits (List.replicate 8 5) []) true false = none ∧ running.Names [0x63] 2 unguarded ∧
      unguarded.kind = .secret ∧ running.hasRight 1 rightOwner = false) :=
  ⟨⟨rfl, hears_running (by decide), by decide +kernel, by decide +kernel, by decide +kernel⟩, ⟨⟨rfl, rfl, rfl, by decide, by decide, by decide +kernel⟩, by decide +kernel⟩, ⟨⟨rfl, rfl, rfl, by decide, by decide, by decide +kernel⟩, by decide +kernel⟩, ⟨hears_running (by decide), by decide +kernel⟩, ⟨rfl, rfl, rfl, by decide, by decide, by decide +kernel⟩, by decide +kernel, ⟨rfl, by decide +kernel⟩, rfl, by decide +kernel⟩

/-- WindowPeriodsAndOnTimeRunOut, an event of a part that has power then. -/
theorem witness_events_leave_ind :
    ∃ t, exec .onTimeEnd { running with pins := { running.pins with ind := true } } = .next t ∧ t.powered = true ∧ t.pins.ind = false :=
  ⟨_, rfl, rfl, rfl⟩

/-- ChecksFourToSixRefuseInOrder, step 6: every right, and SET PARAMETER without a name, of an unknown name and of a name of each block. -/
theorem witness_rights :
    (running.Hears 1 [] ∧ running.hasRight 1 rightAdmin = false ∧ running.hasRight 1 rightOwner = false ∧
      running.hasRight 1 rightUpdate = false) ∧ running.Hears 0 [] ∧ (running.Hears 0 [0x20] ∧ Param.ofCode 0x20 = none) ∧
    (running.Hears 1 [1] ∧ Param.ofCode 1 = some (.boot .attachLimit)) ∧
    (running.Hears 1 [0x13] ∧ Param.ofCode 0x13 = some (.vault .forgive)) :=
  ⟨⟨⟨rfl, rfl, rfl, by decide, by decide, by decide +kernel⟩, by decide +kernel, by decide +kernel, by decide +kernel⟩, hears_running (by decide), ⟨hears_running (by decide), rfl⟩, ⟨⟨rfl, rfl, rfl, by decide, by decide, by decide +kernel⟩, rfl⟩, ⟨rfl, rfl, rfl, by decide, by decide, by decide +kernel⟩, rfl⟩

/-- OwnerRequestsEnrolClaimRemoveAndReset, every clause. -/
theorem witness_owner_requests :
    (running.hasRight 0 rightOwner = true ∧ running.vault.free = true) ∧
    (running.Hears 0 [1, 0x64, 0, 1, 0, 0, 0, 1, 5] ∧ readCredForm [1, 0x64, 0, 1, 0, 0, 0, 1, 5] = some (form 0 [5]) ∧
      (form 0 [5]).wellFormed = true ∧ running.kept.findCred [0x64] = none ∧ running.kept.freeCred = some 3 ∧
      running.kept.vault.claimed = true) ∧
    (present.Hears 0 [1, 0, 0, 0] ∧ number [1, 0, 0, 0] ≠ 0 ∧
      { records with vault := factoryVault }.vault.claimed = false) ∧
    (present.Hears 0 [1, 0x62] ∧ running.Names [0x62] 1 guarded ∧ running.Names [0x61] 0 passphrase ∧
      running.Names [0x63] 2 unguarded) ∧ present.Hears 0 [] ∧
    ((storing ⟨.credPut { unguarded with label := [0x64] }, .replyIndex [0x64]⟩).store.making =
        some ⟨.credPut { unguarded with label := [0x64] }, .replyIndex [0x64]⟩ ∧
      running.kept.findCred [0x61] = some (0, passphrase) ∧ passphrase.credClass ≠ .owner ∧
      unguarded.credClass = .owner ∧ running.gate.selection = .idle) :=
  ⟨⟨by decide +kernel, rfl⟩, ⟨hears_running (by decide), by decide +kernel, by decide +kernel, by decide +kernel, by decide +kernel, rfl⟩, ⟨hears_present (by decide), by decide, rfl⟩,
    ⟨hears_present (by decide), ⟨rfl, by decide +kernel⟩, ⟨rfl, by decide +kernel⟩, ⟨rfl, by decide +kernel⟩⟩, hears_present (by decide), rfl, by decide +kernel, by decide, rfl, rfl⟩

/-- CredentialRequestsChargeRetrieveAndChange, every clause; CRED CHANGE of one byte with an old passphrase of one byte. -/
theorem witness_credential_requests :
    running.vault.free = true ∧ running.Names [0x61] 0 passphrase ∧ inSet passphrase.answerSet 0 = true ∧
    passphrase.kind = .verifier ∧ running.Hears 0 [1, 0x61, 0x70] ∧ running.Hears 0 [1, 0x61, 1, 5, 0] ∧
    running.Hears 0 [1, 0x61, 1, 5, 1, 9] ∧
    (running.Names [0x63] 2 unguarded ∧ unguarded.kind = .secret ∧ unguarded.presence = false ∧
      running.hasRight 0 rightOwner = true ∧ running.Hears 0 [1, 0x63] ∧
      running.Hears 0 ([1, 0x63, 8] ++ List.replicate 8 5 ++ [0])) ∧
    (running.Names [0x62] 1 guarded ∧ guarded.kind = .secret ∧ guarded.presence = true ∧
      running.biu.window = none ∧ present.biu.window ≠ none ∧
      present.Hears 0 ([1, 0x62, 8] ++ List.replicate 8 5 ++ [0])) :=
  ⟨rfl, ⟨rfl, by decide +kernel⟩, rfl, rfl, hears_running (by decide), hears_running (by decide), hears_running (by decide), ⟨⟨rfl, by decide +kernel⟩, rfl, rfl, by decide +kernel, hears_running (by decide), hears_running (by decide)⟩,
    ⟨rfl, by decide +kernel⟩, rfl, rfl, rfl, by decide, hears_present (by decide)⟩

/-- ComparisonClearsOrPenalizes, the clause of the penalty; the last count below the cap and the first above it. -/
theorem witness_penalties :
    3 ≤ factoryVault.free ∧ (factoryVault.free < 14 ∧ factoryVault.base * 2 ^ (14 - factoryVault.free - 1) ≤ factoryVault.cap) ∧
    factoryVault.cap < factoryVault.base * 2 ^ (15 - factoryVault.free - 1) :=
  by decide

/-- The part with HOLD_SOC, or SHOW_PATTERN, as the action of the failure count 5. -/
def penalized (hold pattern : Bool) (s : State) : State := { s with kept := { s.kept with
  reactions := ((Vector.replicate 8 spareReaction).setIfInBounds 0 ⟨hold, .penaltyLevel, some 5, .holdSoc, false⟩).setIfInBounds 1
    ⟨pattern, .penaltyLevel, some 5, .showPattern 1, false⟩ } }

set_option maxRecDepth 100000 in
/-- ComparisonClearsOrPenalizes, the charge and both cases of the comparison; an event that matches an entry and one that does not. -/
theorem witness_comparison :
    (digested .credCheck (.comparing ⟨0, 0⟩ 4 none)).digest.absorbing = some ⟨.link, false⟩ ∧
    (digested .credCheck (.comparing ⟨0, 0⟩ 4 none)).digest.link.absorb.state = .finished ∧
    (digested .credCheck (.comparing ⟨0, 0⟩ 4 none)).link.service = .comparing ⟨0, 0⟩ 4 none ∧
    running.kept.credAt ⟨0, 0⟩ = some passphrase ∧
    (digested .credCheck (.comparing ⟨0, 0⟩ 4 none)).digest.link.absorb.result ≠ passphrase.value ∧
    running.matching .penaltyLevel passphrase.failures = [] ∧
    (records.updateCred ⟨0, 0⟩ fun c => { c with value := sha256 [1, 2, 3] }).credAt ⟨0, 0⟩ =
      some { passphrase with value := (digested .credCheck .none).digest.link.absorb.result } ∧
    (digested .credChange (.comparing ⟨0, 0⟩ 4 (some [5]))).link.service = .comparing ⟨0, 0⟩ 4 (some [5]) ∧
    .holdSoc ∈ (penalized true false running).actionsOf ((penalized true false running).matching .penaltyLevel 5) ∧
    .recoveryNext ∉ (penalized true false running).actionsOf ((penalized true false running).matching .penaltyLevel 5) ∧
    (penalized false true running).matching .penaltyLevel 5 = [1] ∧
    (penalized false true running).matching .penaltyLevel 4 = [] ∧ running.held = false ∧
    (storing ⟨.credCharge ⟨0, 0⟩ 100, .compare ⟨0, 0⟩ 4 [5] none⟩).store.making = some ⟨.credCharge ⟨0, 0⟩ 100, .compare ⟨0, 0⟩ 4 [5] none⟩ ∧
    (storing ⟨.credMatch ⟨0, 0⟩, .reply []⟩).store.making = some ⟨.credMatch ⟨0, 0⟩, .reply []⟩ ∧
    (recreated.credAt ⟨0, 0⟩ = none ∧ recreated.cred 0 = some passphrase) ∧ running.gate.selection = .idle :=
  ⟨by decide +kernel, by decide +kernel, rfl, rfl, by decide +kernel, by decide +kernel, by decide +kernel, rfl, by decide +kernel, by decide +kernel, by decide +kernel, by decide +kernel, rfl, rfl, rfl, ⟨rfl, rfl⟩, rfl⟩

/-- DecayAndWaitingResetTakeTheVault, every clause; a step due exactly, and after it a step not due by one second. -/
theorem witness_decay_and_reset :
    (running.kept.cred 0 = some passphrase ∧ 0 < passphrase.failures ∧
      { running with uptime := 86400000 }.vault.clockOf 0 + running.kept.vault.forgive * 3600 ≤ 86400000 / 1000) ∧
    ({ running.vault with waiting := [.reset] }.waiting = .reset :: [] ∧ running.vault.holder = none) ∧
    ({ running with store := ⟨some ⟨.credDecay ⟨0, 0⟩ 86400, .decayed 0⟩, []⟩ }.store.making =
        some ⟨.credDecay ⟨0, 0⟩ 86400, .decayed 0⟩ ∧ running.kept.credAt ⟨0, 0⟩ = some passphrase ∧ running.gate.selection = .idle ∧ running.vault.waiting = [] ∧
      { running with uptime := 172799999 }.second < running.vault.clockOf 0 + 86400 + running.kept.vault.forgive * 3600) ∧
    ((storing ⟨.ownerReset, .resetDone true⟩).store.making = some ⟨.ownerReset, .resetDone true⟩ ∧
      (storing ⟨.ownerReset, .resetDone false⟩).keys.held = none ∧
      (storing ⟨.ownerReset, .resetDone false⟩).vault.waiting = [] ∧
      (∀ item ∈ (storing ⟨.ownerReset, .resetDone false⟩).store.waiting, item.op ≠ .ownerReset) ∧
      running.kept.slotAt ⟨7, 0⟩ = some ownerSlot ∧ ownerSlot.slotClass = .owner ∧ ownerSlot.state = .active) :=
  ⟨⟨rfl, by decide, by decide +kernel⟩, ⟨rfl, rfl⟩, ⟨rfl, rfl, rfl, rfl, by decide +kernel⟩, rfl, rfl, rfl, fun _ h => (List.not_mem_nil h).elim, rfl, rfl, rfl⟩

/-- A part whose vault is held. -/
def vaultHeld (by_ : VaultWork) : State := { running with vault := { running.vault with holder := some by_ } }
/-- A part with a write held back while an owner reset's update is being made. -/
def holdingBack (op : StoreOp) (after : After) : State := { storing ⟨.ownerReset, .resetDone false⟩ with
  keys := { running.keys with held := some ⟨op, after⟩ } }
/-- A part with a vault request whose turn comes with the end of a write. -/
def inTurn (item : StoreItem) : State := { serving .vaultStatus .vaultWait with
  store := ⟨some item, []⟩, vault := { running.vault with holder := some .decay, waiting := [.request] } }

/-- DecayAndWaitingResetTakeTheVault, a vault request: with the vault free and held, of every right, and in its turn at the end of each update. -/
theorem witness_vault_requests :
    (running.Hears 0 [] ∧ running.vault.free = true ∧ (Req.ownerReset, Instr.ownerReset 0 []) ∈ running.vaultRequests 0 []) ∧
    ((vaultHeld .decay).Hears 0 [] ∧ (vaultHeld .decay).vault.free = false ∧
      (Req.vaultStatus, Instr.vaultStatus 0 []) ∈ (vaultHeld .decay).vaultRequests 0 []) ∧
    (factory.Hears 0 [0x10] ∧
      (Req.provisionCredential, Instr.provisionCredential 0 [0x10]) ∈ factory.vaultRequests 0 [0x10] ∧
      (Req.setParameter, Instr.setParameter 0 [0x10]) ∈ factory.vaultRequests 0 [0x10]) ∧
    ((inTurn ⟨.ownerReset, .resetDone false⟩).vault.waiting = .request :: [] ∧
      (inTurn ⟨.ownerReset, .resetDone false⟩).link.request = some ⟨.vaultStatus, 0, []⟩ ∧
      (inTurn ⟨.ownerReset, .resetDone false⟩).keys.held = none) ∧
    ((inTurn ⟨.credDecay ⟨0, 0⟩ 86400, .decayed 0⟩).kept.credAt ⟨0, 0⟩ = some passphrase ∧
      (inTurn ⟨.credDecay ⟨0, 0⟩ 86400, .decayed 0⟩).second < running.vault.clockOf 0 + 86400 + running.kept.vault.forgive * 3600) ∧
    ((vaultHeld .request).vault.holder = some .request ∧ (vaultHeld .request).store.making = none ∧
      ∃ t, step (vaultHeld .request) = .next t) :=
  ⟨⟨hears_running (by decide), rfl, by decide +kernel⟩, ⟨⟨rfl, rfl, rfl, by decide, by decide, by decide +kernel⟩, rfl, by decide +kernel⟩, ⟨hears_factory (by decide), by decide +kernel, by decide +kernel⟩,
    ⟨rfl, rfl, rfl⟩, ⟨rfl, by decide +kernel⟩, rfl, rfl, _, rfl⟩

/-- DecayAndWaitingResetTakeTheVault, a write held back: one that creates a slot of class OWNER, and one that counts a use of such a slot. -/
theorem witness_held_back :
    (holdingBack (.slotPut 9 ownerSlot) (.replyKeyInfo 9)).keys.held = some ⟨.slotPut 9 ownerSlot, .replyKeyInfo 9⟩ ∧
    (holdingBack (.slotPut 9 ownerSlot) (.replyKeyInfo 9)).store.making = some ⟨.ownerReset, .resetDone false⟩ ∧
    (holdingBack (.slotPut 9 ownerSlot) (.replyKeyInfo 9)).vault.waiting.head? ≠ some .request ∧
    (holdingBack (.slotPut 9 ownerSlot) (.replyKeyInfo 9)).kept.vault.claimed = true ∧
    (holdingBack (.slotCount ⟨7, 0⟩) (.reply [])).keys.held = some ⟨.slotCount ⟨7, 0⟩, .reply []⟩ ∧
    (holdingBack (.slotCount ⟨7, 0⟩) (.reply [])).kept.slotAt ⟨7, 0⟩ = some ownerSlot :=
  ⟨rfl, rfl, by decide, rfl, rfl, rfl⟩

/-- ButtonIsDebouncedAndTimed, every clause; a level held for exactly 30 ms. -/
theorem witness_button :
    running.biu.pressed ≠ true ∧
    ({ running.biu with pressed := true, levelSince := 99970, button := .released }.button ≠ .pressed ∧
      99970 + 30 ≤ running.uptime) ∧
    ({ running.biu with levelSince := 99970, button := .pressed, press := some ⟨98001, false, false⟩ }.button ≠ .released ∧
      running.gate.state ≠ .faultHold ∧ running.uptime < 98001 + 2000) ∧
    ((inGate { gateAtPowerOn with state := .faultHold }).gate.state = .faultHold ∧ 0 < running.recoverySize ∧
      running.kept.lifecycle = .field) :=
  by decide +kernel

/-- WindowPeriodsAndOnTimeRunOut, every clause; moments reached exactly. -/
theorem witness_window_and_periods :
    ({ present with uptime := 130000 }.biu.window = some 130000 ∧ 130000 ≤ { present with uptime := 130000 }.uptime) ∧
    ({ running.biu with host := ⟨some ⟨⟨1000, 500, 0⟩, 0, 99000⟩, none⟩ }.host.current = some ⟨⟨1000, 500, 0⟩, 0, 99000⟩ ∧
      99000 + 1000 ≤ running.uptime) ∧
    ({ running with pins := { running.pins with ind := true } }.pins.ind = true ∧ running.indLit = false) :=
  ⟨⟨rfl, by decide⟩, ⟨rfl, by decide⟩, rfl, rfl⟩

/-- SetIndicatorGivesOrClearsTheHostSource, both forms; the largest values. -/
theorem witness_set_indicator :
    running.Hears 0 (1 :: (le16 65535 ++ le16 65535 ++ [255])) ∧ running.Hears 0 [0] :=
  ⟨hears_running (by decide), hears_running (by decide)⟩

/-- TableWritesReplaceOneEntry, every clause; entry 7 and patterns 1 and 4. -/
theorem witness_table_writes :
    (running.Hears 0 [7, 1, 3, 0, 4, 0, 0, 0] ∧ running.hasRight 0 rightAdmin = true ∧
      readReaction [7, 1, 3, 0, 4, 0, 0, 0] = some (7, ⟨true, .penaltyLevel, some 4, .alertOnly, false⟩)) ∧
    running.Hears 0 [7, 1, 3, 5, 4, 0, 0, 0] ∧
    ({ running with store := ⟨some ⟨.reactionPut 7 spareReaction, .reply []⟩, []⟩ }.store.making =
      some ⟨.reactionPut 7 spareReaction, .reply []⟩ ∧ running.gate.selection = .idle) ∧
    (running.Hears 0 (1 :: (le16 0 ++ le16 65535 ++ [0])) ∧ running.Hears 0 (4 :: (le16 0 ++ le16 65535 ++ [0]))) :=
  ⟨⟨hears_running (by decide), by decide +kernel, by decide +kernel⟩, hears_running (by decide), ⟨rfl, rfl⟩, hears_running (by decide), hears_running (by decide)⟩

/-- ProvisionSlotWritesFactorySlots, every clause; slots 0, 1 and 3. -/
theorem witness_provision_slot :
    (factory.kept.lifecycle = .manufacture ∧ factory.kept.slot 3 = none ∧ factory.kept.slotLabelFree [0x7a] = true ∧
      takePolicy [0, 0, 2, 1, 0, 0, 0, 0, 1, 0x7a] = some (⟨0, 0, 2, 1, 0, 0, 0, [], [0x7a]⟩, []) ∧
      Policy.wellFormed ⟨0, 0, 2, 1, 0, 0, 0, [], [0x7a]⟩ .factory = true ∧
      factory.Hears 0 (3 :: 0 :: [0, 0, 2, 1, 0, 0, 0, 0, 1, 0x7a])) ∧
    (Policy.wellFormed ⟨0, 1, 4, 1, 0, 0, 0, [], [0x7a]⟩ .factory = true ∧
      takePolicy ([0, 1, 4, 1, 0, 0, 0, 0, 1, 0x7a] ++ key64) = some (⟨0, 1, 4, 1, 0, 0, 0, [], [0x7a]⟩, key64) ∧
      factory.Hears 0 (3 :: 1 :: ([0, 1, 4, 1, 0, 0, 0, 0, 1, 0x7a] ++ key64))) ∧
    (Policy.wellFormed ⟨0, 3, 32, 1, 0, 0, 0, [], [0x7a]⟩ .factory = true ∧
      takePolicy [0, 3, 32, 1, 0, 0, 0, 0, 1, 0x7a, 5] = some (⟨0, 3, 32, 1, 0, 0, 0, [], [0x7a]⟩, [5]) ∧
      factory.Hears 0 (3 :: 2 :: 0 :: 0 :: [0, 3, 32, 1, 0, 0, 0, 0, 1, 0x7a, 5])) ∧
    (factory.Hears 0 [0, 3] ∧ factory.kept.slot 0 = none ∧ factory.Hears 0 [1, 3] ∧
      factory.kept.slot 1 = some attestation ∧ attestation.slotClass = .factory) ∧
    (running.kept.lifecycle = .field ∧ running.Hears 0 []) :=
  ⟨⟨rfl, rfl, by decide +kernel, by decide +kernel, by decide +kernel, hears_factory (by decide)⟩, ⟨by decide +kernel, by decide +kernel, hears_factory (by decide)⟩, ⟨by decide +kernel, by decide +kernel, hears_factory (by decide)⟩, ⟨hears_factory (by decide), rfl, hears_factory (by decide), rfl, rfl⟩, rfl, hears_running (by decide)⟩

/-- ProvisioningWritesAndLocksTheFactoryRecords, every clause; the largest sizes. -/
theorem witness_provisioning :
    factory.kept.lifecycle = .manufacture ∧ factory.Hears 0 (le32 (2 ^ 32 - 1) ++ le32 0) ∧
    (factory.Hears 0 ([12, 0, 8, 0, 0, 0, 1] ++ [0, 16, 0, 0, 0, 16, 0, 0, 1] ++ key32) ∧
      readGolden ([12, 0, 8, 0, 0, 0, 1] ++ [0, 16, 0, 0, 0, 16, 0, 0, 1] ++ key32) =
        some (12, 8, [⟨4096, 4096, key32, true, false⟩]) ∧
      factory.kept.layout = some ⟨0x800000, 0x400000⟩ ∧
      regionsFit 0x800000 [⟨4096, 4096, key32, true, false⟩] = true ∧ factory.kept.counter 0 ≤ 12) ∧
    (factory.vault.free = true ∧ factory.Hears 0 [1, 0x64, 0, 1, 0, 0, 0, 1, 5] ∧
      readCredForm [1, 0x64, 0, 1, 0, 0, 0, 1, 5] = some (form 0 [5]) ∧ (form 0 [5]).wellFormed = true ∧
      factory.kept.findCred [0x64] = none ∧ factory.kept.freeCred = some 3) ∧
    (factory.Hears 0 [] ∧ factory.kept.goldenA.valid = true ∧
      ({ records with slots := records.slots.setIfInBounds 0 (some signing) }.slot 0 = some signing) ∧
      signing.state = .active ∧ records.attestationReady = true ∧ factory.kept.slotActive 0 = false) :=
  ⟨rfl, hears_factory (by decide), ⟨hears_factory (by decide), by decide +kernel, rfl, by decide +kernel, by decide⟩, ⟨rfl, hears_factory (by decide), by decide +kernel, by decide +kernel, by decide +kernel, by decide +kernel⟩, hears_factory (by decide), rfl, rfl, rfl, by decide +kernel, by decide +kernel⟩

/-- ParametersAreClampedWrittenAndRead, the clauses of the write; a period of 0 and the longest. -/
theorem witness_parameter_written :
    (storing ⟨.bootParam .scanPeriod 1440, .reply []⟩).store.making = some ⟨.bootParam .scanPeriod 1440, .reply []⟩ ∧
    (storing ⟨.bootParam .scanPeriod 0, .reply []⟩).store.making = some ⟨.bootParam .scanPeriod 0, .reply []⟩ ∧
    running.gate.selection = .idle ∧ running.gate.state = .running ∧ running.gate.scanTimer = none ∧
    { running.gate with booted := some ⟨goldenSet.regions, 11, 7, false⟩ }.booted.isSome = true ∧ 0 < 1440 :=
  ⟨rfl, rfl, rfl, rfl, rfl, rfl, by decide⟩

/-- ManagingRequestsWriteTheirSlot, the clauses of the records; an ACTIVE and a RETIRED slot, one that is EMPTY and one created anew. -/
theorem witness_retired_and_erased :
    records.slotAt ⟨4, 0⟩ = some signing ∧ records.slotAt ⟨8, 0⟩ = some retiredSlot ∧ records.slotAt ⟨23, 0⟩ = none ∧
    recreated.slotAt ⟨4, 0⟩ = none ∧
    (storing ⟨.slotRetire ⟨4, 0⟩, .reply []⟩).store.making = some ⟨.slotRetire ⟨4, 0⟩, .reply []⟩ ∧
    (storing ⟨.slotErase ⟨4, 0⟩, .reply []⟩).store.making = some ⟨.slotErase ⟨4, 0⟩, .reply []⟩ :=
  ⟨rfl, rfl, rfl, rfl, rfl, rfl⟩

/-- AbortAndDeadlineEndTheVerification and ArmTrialAndConfirmImageHandTheirUpdate, the clauses of the records. -/
theorem witness_armed_and_disarmed :
    { records with staged := .armed fields0 (some []) }.staged = .armed fields0 (some []) ∧
    { records with staged := .verified fields0 (some []) }.staged = .verified fields0 (some []) :=
  ⟨rfl, rfl⟩

/-- OnlyTheStoreWritesRecords, the clauses of the lives: an erased slot and a removed record, and a life that has ended. -/
theorem witness_lives :
    ((storing ⟨.slotErase ⟨4, 0⟩, .reply []⟩).kept.slot 4 ≠ none ∧
      (after .storeWriteComplete (storing ⟨.slotErase ⟨4, 0⟩, .reply []⟩)).kept.slot 4 = none) ∧
    ((storing ⟨.credRemove ⟨2, 0⟩, .reply []⟩).kept.cred 2 ≠ none ∧
      (after .storeWriteComplete (storing ⟨.credRemove ⟨2, 0⟩, .reply []⟩)).kept.cred 2 = none) ∧
    (Place.mk 4 1 = recreated.slotPlace 4 ∧ Place.life ⟨4, 0⟩ < (recreated.slotPlace 4).life) ∧
    (Place.mk 0 1 = recreated.credPlace 0 ∧ Place.life ⟨0, 0⟩ < (recreated.credPlace 0).life) :=
  ⟨⟨by decide, by decide +kernel⟩, ⟨by decide, by decide +kernel⟩, ⟨rfl, by decide⟩, rfl, by decide⟩

/-- BankSelectionTakesTheFirstStepThatHolds, the clause of the fallback with its event. -/
theorem witness_trial_fallback :
    (selecting { records with staged := .trial fields0 (some []) }).kept.staged.onTrial = true ∧
    (records.golden records.selector.active).valid = true ∧
    (records.golden records.selector.active).regions.any (·.measure) = true :=
  ⟨rfl, rfl, rfl⟩

/-- OwnerRequestsEnrolClaimRemoveAndReset, the clauses of the claim and the removal. -/
theorem witness_owner_writes :
    { records with vault := factoryVault }.vault.claimed = false ∧
    (storing ⟨.credRemove ⟨2, 0⟩, .reply []⟩).store.making = some ⟨.credRemove ⟨2, 0⟩, .reply []⟩ ∧
    running.kept.credAt ⟨2, 0⟩ = some unguarded ∧ running.gate.selection = .idle :=
  ⟨rfl, rfl, rfl, rfl⟩

/-- CredentialRequestsChargeRetrieveAndChange, the clause of the write; a value that is the factory copy and one that is not. -/
theorem witness_changed_values :
    (storing ⟨.credValue ⟨0, 0⟩ [9] true true, .reply []⟩).store.making = some ⟨.credValue ⟨0, 0⟩ [9] true true, .reply []⟩ ∧
    (storing ⟨.credValue ⟨0, 0⟩ [5] true false, .reply []⟩).store.making = some ⟨.credValue ⟨0, 0⟩ [5] true false, .reply []⟩ ∧
    running.kept.credAt ⟨0, 0⟩ = some passphrase ∧ passphrase.credClass = .factory [9] false ∧
    running.kept.credAt ⟨1, 0⟩ = some guarded ∧ running.gate.selection = .idle :=
  ⟨rfl, rfl, rfl, rfl, rfl, rfl⟩

/-- TableWritesReplaceOneEntry, the clauses of the records and of pattern 3; identities 0 and 7, and a window open and closed. -/
theorem witness_replaced_entries :
    someAdmin (records.requesters.setIfInBounds 0 ⟨true, .loader, 7⟩) = true ∧
    someAdmin (records.requesters.setIfInBounds 7 ⟨false, .loader, 0⟩) = true ∧
    ({ present with store := ⟨some ⟨.patternPut 3 ⟨100, 50, 1⟩, .reply []⟩, []⟩ }.store.making =
      some ⟨.patternPut 3 ⟨100, 50, 1⟩, .reply []⟩ ∧ present.biu.window.isSome = true ∧
      running.biu.window.isSome = false ∧ present.gate.selection = .idle) :=
  ⟨by decide +kernel, by decide +kernel, rfl, rfl, rfl, rfl⟩

/-- The part in MANUFACTURE with a blob in slot 3. -/
def factoryBlob : State := { factory with kept := { factory.kept with
  slots := factory.kept.slots.setIfInBounds 3 (some { blobSlot with slotClass := .factory, label := [0x7a] }) } }

/-- ProvisionSlotWritesFactorySlots, the clause of a later chunk. -/
theorem witness_provision_chunk :
    factoryBlob.kept.lifecycle = .manufacture ∧
    factoryBlob.kept.slot 3 = some { blobSlot with slotClass := .factory, label := [0x7a] } ∧ blobSlot.state = .active ∧
    blobSlot.material = .blob [1, 2, 3] ∧ factoryBlob.Hears 0 (3 :: 2 :: (le16 [(1 : Byte), 2, 3].length ++ [4])) :=
  ⟨rfl, rfl, rfl, rfl, ⟨rfl, rfl, rfl, by decide, by decide, by decide +kernel⟩⟩

end Sys2Proof.Tests
end

section
/-! SUPPORT. Proofs for chapter 1, part 1: key slots and their records under a write (R5, R6, R20, R21, R22, R144), and the updates that write
several records together (R112, R113). -/

namespace Sys2Proof.Machine

/-! ## One slot under a write -/

/-- A count of a slot without a limit saturates (R6). -/
theorem KeySlot.counted_unlimited {k : KeySlot} (h : k.useLimit = none) :
    k.counted = { k with useCount := min (k.useCount + 1) 65535 } := by
  simp [KeySlot.counted, h, saturating]

/-- A count that does not reach the limit raises the use count alone (R6). -/
theorem KeySlot.counted_below {k : KeySlot} {limit : Nat} (h : k.useLimit = some limit) (hl : k.useCount + 1 ≠ limit) :
    k.counted = { k with useCount := k.useCount + 1 } := by
  simp [KeySlot.counted, h, hl]

/-- A count that reaches the limit retires the slot (R6). -/
theorem KeySlot.counted_atLimit {k : KeySlot} {limit : Nat} (h : k.useLimit = some limit) (hl : k.useCount + 1 = limit) :
    k.counted = { k with useCount := limit }.retired := by
  simp [KeySlot.counted, h, hl]

/-- The use count after a count (R6). -/
theorem KeySlot.counted_useCount (k : KeySlot) :
    k.counted.useCount = if k.useLimit = none then min (k.useCount + 1) 65535 else k.useCount + 1 := by
  cases h : k.useLimit with
  | none => simp [KeySlot.counted_unlimited h]
  | some limit =>
    by_cases hl : k.useCount + 1 = limit
    · simp [KeySlot.counted_atLimit h hl, KeySlot.retired, hl]
    · simp [KeySlot.counted_below h hl]

/-- An ACTIVE slot is retired by the count that reaches its limit, and by no other (R6). -/
theorem KeySlot.counted_state {k : KeySlot} (ha : k.state = .active) :
    k.counted.state = if k.useLimit = some (k.useCount + 1) then .retired else .active := by
  cases h : k.useLimit with
  | none => simp [KeySlot.counted_unlimited h, ha]
  | some limit =>
    by_cases hl : k.useCount + 1 = limit
    · simp [KeySlot.counted_atLimit h hl, KeySlot.retired, hl]
    · simp [KeySlot.counted_below h hl, ha, Ne.symm hl]

/-- A chunk joins a blob's data at its end (R20). -/
theorem KeySlot.appended_blob {k : KeySlot} {data : Bytes} (h : k.material = .blob data) (chunk : Bytes) :
    k.appended chunk = { k with material := .blob (data ++ chunk) } := by
  simp [KeySlot.appended, h]

/-- What a narrowing makes of an ACTIVE slot's fields: a limit at or below the use count retires it (R21). -/
theorem KeySlot.restricted_fields {k : KeySlot} (ha : k.state = .active) (usage answers : Byte) (limit : Option Nat)
    (binding : Option Binding) :
    (k.restricted usage answers limit binding).usage = usage ∧
      (k.restricted usage answers limit binding).answerSet = answers ∧
      (k.restricted usage answers limit binding).useLimit = limit.or k.useLimit ∧
      (k.restricted usage answers limit binding).binding = binding.or k.binding ∧
      (k.restricted usage answers limit binding).useCount = k.useCount ∧
      (k.restricted usage answers limit binding).label = k.label ∧
      (k.restricted usage answers limit binding).state =
        if ((limit.or k.useLimit).any fun l => decide (l ≤ k.useCount)) = true then .retired else .active := by
  unfold KeySlot.restricted
  dsimp only
  cases limit.or k.useLimit with
  | none => simp [ha]
  | some l => by_cases hl : l ≤ k.useCount <;> simp [hl, ha, KeySlot.retired]

/-! ## The records under a write of a slot -/

/-- A change of a slot changes nothing but the slots. -/
theorem Records.updateSlot_frame (r : Records) (p : Place) (f : KeySlot → KeySlot) :
    r.updateSlot p f = { r with slots := (r.updateSlot p f).slots } := by
  unfold Records.updateSlot
  split <;> rfl

/-- A slot that is emptied changes nothing but the slots and their lives. -/
theorem Records.emptySlot_frame (r : Records) (p : Place) :
    r.emptySlot p = { r with slots := (r.emptySlot p).slots, slotLives := (r.emptySlot p).slotLives } := by
  unfold Records.emptySlot
  split <;> rfl

/-- A change of a slot leaves the other slots, whether its place names one or not. -/
theorem Records.updateSlot_other (r : Records) (p : Place) (f : KeySlot → KeySlot) {j : Nat} (hj : j ≠ p.index) :
    (r.updateSlot p f).slot j = r.slot j := by
  cases h : r.slotAt p with
  | none => simp [Records.updateSlot, h]
  | some k => exact (Records.updateSlot_some h f).2.1 j hj

/-- A slot that is emptied leaves the other slots. -/
theorem Records.emptySlot_other (r : Records) (p : Place) {j : Nat} (hj : j ≠ p.index) :
    (r.emptySlot p).slot j = r.slot j := by
  cases h : r.slotAt p with
  | none => simp [Records.emptySlot, h]
  | some k => exact (Records.emptySlot_some h).2.1 j hj

/-- A created slot stands in its place. -/
theorem Records.withSlot_slot (r : Records) {i : Nat} (hi : i < 24) (slot : Option KeySlot) : (r.withSlot i slot).slot i = slot := by
  simp [Records.withSlot, Records.slot, hi]

/-- A change of one slot leaves the others. -/
theorem Records.withSlot_other (r : Records) {i j : Nat} (hj : j ≠ i) (slot : Option KeySlot) :
    (r.withSlot i slot).slot j = r.slot j := by
  simp [Records.withSlot, Records.slot, hj.symm]

/-- A count of an ACTIVE slot is made (R6). -/
theorem Records.apply_slotCount {r : Records} {p : Place} {k : KeySlot} (hs : r.slotAt p = some k) (ha : k.state = .active) :
    r.apply (.slotCount p) = r.updateSlot p KeySlot.counted :=
  Records.apply_ok (Records.recheckSlot_count hs ha)

/-- A count of a slot that has become EMPTY is not made (log entries 46 and 53). -/
theorem Records.recheck_slotCount_empty {r : Records} {p : Place} (hs : r.slotAt p = none) :
    r.recheck (.slotCount p) = .error .slotEmpty := by
  simp [Records.recheckSlot, hs]

/-- A count of a RETIRED slot is not made (log entries 38 and 46). -/
theorem Records.recheck_slotCount_retired {r : Records} {p : Place} {k : KeySlot} (hs : r.slotAt p = some k)
    (hr : k.state = .retired) : r.recheck (.slotCount p) = .error .wrongState := by
  simp [Records.recheckSlot, hs, checkActive, hr, check]

/-- A slot in its life is retired (R22). -/
theorem Records.recheck_slotRetire_ok {r : Records} {p : Place} {k : KeySlot} (hs : r.slotAt p = some k) :
    r.recheck (.slotRetire p) = .ok () := by
  simp [Records.recheckSlot, hs]

/-- A slot that has become EMPTY is not retired (log entry 53). -/
theorem Records.recheck_slotRetire_empty {r : Records} {p : Place} (hs : r.slotAt p = none) :
    r.recheck (.slotRetire p) = .error .slotEmpty := by
  simp [Records.recheckSlot, hs]

/-! ## The updates that write several records -/

/-- The golden set of one bank stands where the other bank's is replaced. -/
@[simp] theorem Records.withGolden_other (r : Records) (bank : Bank) (set : GoldenSet) :
    (r.withGolden bank.other set).golden bank = r.golden bank := by
  cases bank <;> rfl

@[simp] theorem Records.withCounter_same (r : Records) {line : Nat} (h : line ≤ 3) (epoch : Nat) :
    (r.withCounter line epoch).counter line = epoch := by
  simp [Records.withCounter, Records.counter, show line < 4 by omega]

theorem Records.withCounter_other (r : Records) {line other : Nat} (h : other ≠ line) (epoch : Nat) :
    (r.withCounter line epoch).counter other = r.counter other := by
  simp [Records.withCounter, Records.counter, h.symm]

/-- The owner reset empties each OWNER slot and leaves the others (R144). -/
theorem Records.apply_ownerReset_slot (r : Records) (i : Nat) :
    (r.apply .ownerReset).slot i = (r.slot i).bind KeySlot.ownerReset := by
  by_cases hi : i < 24 <;> simp [Records.written, Records.ownerReset, Records.slot, hi]

/-- The owner reset removes each OWNER record and restores the others (R144). -/
theorem Records.apply_ownerReset_cred (r : Records) (i : Nat) :
    (r.apply .ownerReset).cred i = (r.cred i).bind Credential.ownerReset := by
  by_cases hi : i < 16 <;> simp [Records.written, Records.ownerReset, Records.cred, hi]

/-- The golden sets, the selector and counter 0 after the confirming update of line 0 (R112). -/
theorem Records.confirmBoot_trial {r : Records} {f : ImageFields} {regions : List Region} (h : r.staged = .trial f (some regions)) :
    r.confirmBoot =
      { ((r.withGolden r.selector.active.other ⟨true, f.epoch, f.build, regions⟩).withGolden r.selector.active
          { r.golden r.selector.active with valid := false }).withCounter 0 f.epoch with
        selector := ⟨r.selector.active.other, 0⟩, staged := .none } := by
  simp [Records.confirmBoot, h]

/-- The confirming update of lines 1..3 (R113). -/
theorem Records.confirmLine_verified {r : Records} {f : ImageFields} {c : Option (List Region)} (h : r.staged = .verified f c)
    (line : Nat) : r.confirmLine line = { r.withCounter line f.epoch with staged := .none } := by
  simp [Records.confirmLine, h]

/-- A counted use of an ACTIVE slot changes that slot alone (R6). -/
theorem Records.slotCount_counts {r : Records} {p : Place} {k : KeySlot} (hs : r.slotAt p = some k) (ha : k.state = .active) :
    (r.apply (.slotCount p)).slot p.index = some k.counted ∧
      (∀ j, j ≠ p.index → (r.apply (.slotCount p)).slot j = r.slot j) ∧
      r.apply (.slotCount p) = { r with slots := (r.apply (.slotCount p)).slots } := by
  rw [Records.apply_slotCount hs ha]
  obtain ⟨changed, others, _⟩ := Records.updateSlot_some hs KeySlot.counted
  exact ⟨changed, others, r.updateSlot_frame p _⟩

/-- The confirming update of line 0 writes its records together and keeps the others (R112). -/
theorem Records.confirmBoot_writes {r : Records} {f : ImageFields} {regions : List Region} (h : r.staged = .trial f (some regions)) :
    r.confirmBoot.selector = ⟨r.selector.active.other, 0⟩ ∧ r.confirmBoot.staged = .none ∧
      r.confirmBoot.golden r.selector.active.other = ⟨true, f.epoch, f.build, regions⟩ ∧
      r.confirmBoot.golden r.selector.active = { r.golden r.selector.active with valid := false } ∧
      r.confirmBoot.counter 0 = f.epoch ∧ (∀ line, line ≠ 0 → r.confirmBoot.counter line = r.counter line) ∧
      r.confirmBoot = { r with
        selector := r.confirmBoot.selector
        staged := r.confirmBoot.staged
        goldenA := r.confirmBoot.goldenA
        goldenB := r.confirmBoot.goldenB
        counters := r.confirmBoot.counters } := by
  rw [Records.confirmBoot_trial h]
  cases r.selector.active <;>
    exact ⟨rfl, rfl, rfl, rfl, Records.withCounter_same r (by decide) _, fun line hl => Records.withCounter_other r hl _, rfl⟩

/-- Settles O34: each update by the equation of its write. -/
theorem updatesWriteTheirRecordsTogether : Obligations.UpdatesWriteTheirRecordsTogether := by
  refine ⟨fun r p h => ?_, fun r p k hs ha => ?_, fun r => ?_, fun r f regions h => ?_, fun r f c line h hl => ?_⟩
  · cases hs : r.slotAt p with
    | none => exact Records.apply_error (Records.recheck_slotCount_empty hs)
    | some k => exact Records.apply_error (Records.recheck_slotCount_retired hs (h k hs))
  · obtain ⟨changed, others, frame⟩ := Records.slotCount_counts hs ha
    refine ⟨others, frame, fun hl => ?_, fun limit hl hne => ?_, fun limit hl he => ?_⟩
    · rw [changed, KeySlot.counted_unlimited hl]
    · rw [changed, KeySlot.counted_below hl hne]
    · rw [changed, KeySlot.counted_atLimit hl he]
      rfl
  · refine ⟨fun i k hk => ?_, fun i hi => ?_, fun i c hc ho => ?_, fun i c copy changed hc hf => ?_, fun i hi => ?_, rfl, rfl⟩
    · rw [Records.apply_ownerReset_slot, hk]
      rfl
    · rw [Records.apply_ownerReset_slot, hi]
      rfl
    · rw [Records.apply_ownerReset_cred, hc]
      simp [Credential.ownerReset, ho]
    · rw [Records.apply_ownerReset_cred, hc]
      simp [Credential.ownerReset, hf]
    · rw [Records.apply_ownerReset_cred, hi]
      rfl
  · exact Records.confirmBoot_writes h
  · rw [show r.apply (.confirmLine line) = r.confirmLine line from rfl, Records.confirmLine_verified h]
    exact ⟨Records.withCounter_same r hl _, rfl, fun other ho => Records.withCounter_other r ho _, rfl⟩

end Sys2Proof.Machine
end

section
/-! SUPPORT. Proofs for chapter 1, part 2: the ways in which a heard request ends its event, checks taken one by one, and the readings of the
payloads of KEY, BLOB and PROVISION SLOT requests. -/

namespace Sys2Proof.Machine

/-! ## A heard request, from its frame to its service -/

section Granted

variable {s : State} {identity : Byte} {payload : Bytes} {code : Req} {serve : Nat → Bytes → State → State}

/-- The event of a heard request that passes step 6, without the vault, is that of its service on a state that serves it. -/
theorem request_serves (h : s.Hears identity payload) (hr : checkRight code identity.toNat payload s = .ok ())
    (hv : code.usesVault payload = false) :
    ∃ u, Serving s code identity payload u ∧ event true (request code serve identity payload) s =
      .next (sendsBusy (payload.length + 7) (serve identity.toNat payload u)).settle :=
  ⟨_, inService_serving s code identity payload, request_granted h serve hr hv⟩

/-- A heard request that its service answers has changed nothing. -/
theorem request_answered {status : Status} {bytes : Bytes} (h : s.Hears identity payload)
    (hr : checkRight code identity.toNat payload s = .ok ()) (hv : code.usesVault payload = false)
    (hs : ∀ u, Serving s code identity payload u → serve identity.toNat payload u = answer status bytes u) :
    ∃ t, event true (request code serve identity payload) s = .next t ∧ Replies s identity status bytes t := by
  obtain ⟨u, hu, he⟩ := request_serves (serve := serve) h hr hv
  exact ⟨_, he, by rw [hs u hu]; exact hu.replies _ _ _⟩

/-- A heard request whose service hands a write over has changed nothing else. -/
theorem request_hands {op : StoreOp} {after : After} (h : s.Hears identity payload)
    (hr : checkRight code identity.toNat payload s = .ok ()) (hv : code.usesVault payload = false)
    (hs : ∀ u, Serving s code identity payload u → serve identity.toNat payload u = u.handOver op after) :
    ∃ t, event true (request code serve identity payload) s = .next t ∧ Hands s code identity payload op after s.biu t := by
  obtain ⟨u, hu, he⟩ := request_serves (serve := serve) h hr hv
  exact ⟨_, he, by rw [hs u hu]; exact hu.hands _ _ _⟩

/-- A heard request whose service begins a digest has changed nothing else. -/
theorem request_digests {key : Option Bytes} {bytes : Bytes} {service : Service} (h : s.Hears identity payload)
    (hr : checkRight code identity.toNat payload s = .ok ()) (hv : code.usesVault payload = false)
    (hs : ∀ u, Serving s code identity payload u → serve identity.toNat payload u = beginDigest key bytes service u) :
    ∃ t, event true (request code serve identity payload) s = .next t ∧
      Digests s code identity payload key bytes service s.biu t := by
  obtain ⟨u, hu, he⟩ := request_serves (serve := serve) h hr hv
  exact ⟨_, he, by rw [hs u hu]; exact hu.digests _ _ _ _⟩

/-- A heard request for which key material begins to be made has changed nothing else (R18). -/
theorem request_generates {i : Nat} {p : Policy} {provision : Bool} (h : s.Hears identity payload)
    (hr : checkRight code identity.toNat payload s = .ok ()) (hv : code.usesVault payload = false)
    (hs : ∀ u, Serving s code identity payload u → serve identity.toNat payload u = beginGeneration i p provision u) :
    ∃ t, event true (request code serve identity payload) s = .next t ∧ Quiet s t ∧ t.store = s.store ∧ t.biu = s.biu ∧
      t.Serves code identity payload ∧ t.link.service = .generating i p provision := by
  obtain ⟨u, hu, he⟩ := request_serves (serve := serve) h hr hv
  refine ⟨_, he, ?_⟩
  rw [hs u hu]
  exact ⟨{ hu.toQuiet with }, hu.store, hu.biu, ⟨hu.serves.serving, hu.serves.request⟩, rfl⟩

end Granted

/-- A requester with ADMIN or OWNER passes step 6 of the requests that manage slots. -/
theorem checkRight_manager {s : State} {code : Req} {i : Nat} {p : Bytes} (h1 : code ≠ .setParameter)
    (h2 : code.isFactory = false) (h3 : code.rights = [rightAdmin, rightOwner])
    (h4 : s.hasRight i rightAdmin = true ∨ s.hasRight i rightOwner = true) : checkRight code i p s = .ok () := by
  rcases h4 with h4 | h4
  · exact checkRight_held h1 h2 (by simp [h3]) h4
  · exact checkRight_held h1 h2 (by simp [h3]) h4

/-! ## What the state that serves a request shares with the one it came from -/

theorem Serving.slotFailure {s u : State} {code : Req} {identity : Byte} {payload : Bytes} (h : Serving s code identity payload u)
    (i who : Nat) (row : SlotRow) : u.slotFailure i who row = s.slotFailure i who row :=
  slotFailure_same h.kept h.ism h.keys i who row

theorem Serving.resetBegun {s u : State} {code : Req} {identity : Byte} {payload : Bytes} (h : Serving s code identity payload u) :
    u.resetBegun = s.resetBegun :=
  resetBegun_of_store h.store

/-! ## Checks in turn -/

/-- A check in turn refuses as the first failure says. -/
theorem check_bind_fails {α : Type} {holds : Bool} {failure status : Status} {rest : List (Bool × Status)} {f : Unit → Checked α}
    (h : firstFailure ((holds, failure) :: rest) = some status) (hf : firstFailure rest = some status → f () = .error status) :
    (check holds failure >>= f) = .error status := by
  rw [firstFailure_cons] at h
  cases holds with
  | true => exact hf h
  | false => exact congrArg Except.error (Option.some.inj h)

/-- No check fails where the first holds and none of the rest fails. -/
theorem firstFailure_cons_none {holds : Bool} {status : Status} {rest : List (Bool × Status)} :
    firstFailure ((holds, status) :: rest) = none ↔ holds = true ∧ firstFailure rest = none := by
  rw [firstFailure_cons]
  cases holds <;> simp

/-- A check that holds is not among those that fail. -/
theorem firstFailure_cons_true (status : Status) (rest : List (Bool × Status)) :
    firstFailure ((true, status) :: rest) = firstFailure rest := rfl

/-- The checks on a slot that is not EMPTY are those of its record. -/
theorem failureOnSlot_of_slot {s : State} {i : Nat} {k : KeySlot} (hi : i ≤ 23) (hk : s.kept.slot i = some k)
    (checks : KeySlot → List (Bool × Status)) : s.failureOnSlot i checks = firstFailure (checks k) := by
  simp [State.failureOnSlot, hk, Nat.not_lt.2 hi]

theorem failureOnSlot_beyond {s : State} {i : Nat} (hi : 23 < i) (checks : KeySlot → List (Bool × Status)) :
    s.failureOnSlot i checks = some .badArgument := by
  simp [State.failureOnSlot, hi]

theorem failureOnSlot_empty {s : State} {i : Nat} (hi : i ≤ 23) (hk : s.kept.slot i = none)
    (checks : KeySlot → List (Bool × Status)) : s.failureOnSlot i checks = some .slotEmpty := by
  simp [State.failureOnSlot, hk, Nat.not_lt.2 hi]

/-- A slot that is not EMPTY is found (R10). -/
theorem findSlot_ok {s : State} {i : Nat} {k : KeySlot} (hi : i ≤ 23) (hk : s.kept.slot i = some k) : findSlot i s = .ok k := by
  simp [findSlot, hi, hk]

/-! ## Readings of payloads -/

/-- A number that is read takes its bytes off the front. -/
theorem takeNumber_length {n v : Nat} {bytes rest : Bytes} (h : takeNumber n bytes = some (v, rest)) :
    bytes.length = n + rest.length := by
  unfold takeNumber takeBytes at h
  split at h
  · simp only [Option.map_some, Option.some.injEq, Prod.mk.injEq] at h
    rw [← h.2, List.length_drop]
    omega
  · cases h

theorem atEnd_length {rest : Bytes} {u : Unit} (h : atEnd rest = some u) : rest.length = 0 := by
  unfold atEnd at h
  split at h
  · next he => simpa using he
  · cases h

theorem takeNumber_le16_end (n : Nat) (h : n < 65536) : takeNumber 2 (le16 n) = some (n, []) := by
  simpa using takeNumber_le16 n [] h

theorem takeBytes_all (bytes : Bytes) : takeBytes bytes.length bytes = some (bytes, []) := by
  simp [takeBytes]

theorem readByte_refused {payload : Bytes} (h : payload.length ≠ 1) : readByte payload = none := by
  unfold readByte
  split
  · exact absurd rfl h
  · rfl

theorem readBlobRead_le16 (i : Byte) {offset count : Nat} (ho : offset < 65536) (hc : count < 65536) :
    readBlobRead (i :: (le16 offset ++ le16 count)) = some (i.toNat, offset, count) := by
  simp [readBlobRead, takeNumber_le16 _ _ ho, takeNumber_le16_end _ hc]

/-- BLOB READ carries five bytes (R13). -/
theorem readBlobRead_refused {payload : Bytes} (h : payload.length ≠ 5) : readBlobRead payload = none := by
  cases e : readBlobRead payload with
  | none => rfl
  | some read =>
    simp only [readBlobRead, Option.bind_eq_bind, Option.bind_eq_some_iff, Prod.exists] at e
    obtain ⟨_, _, h1, _, _, h2, _, _, h3, _, h4, _⟩ := e
    have := takeNumber_length h1
    have := takeNumber_length h2
    have := takeNumber_length h3
    have := atEnd_length h4
    omega

end Sys2Proof.Machine
end

section
/-! SUPPORT. Proofs for chapter 1, part 3: the requests that read a slot (R11, R12, R13). -/

namespace Sys2Proof.Machine

/-! ## KEY EXPORT PUBLIC (R12) -/

theorem KeyMaterial.publicKey_none {m : KeyMaterial} (h : m.publicKey = none) : publicKinds.contains m.kind = false := by
  cases m with
  | pair | verifyPublic => cases h
  | secret | blob => rfl

theorem KeyMaterial.publicKey_some {m : KeyMaterial} {key : Bytes} (h : m.publicKey = some key) :
    publicKinds.contains m.kind = true ∧ m.publicBytes = key := by
  refine ⟨?_, by simp [KeyMaterial.publicBytes, h]⟩
  cases m with
  | pair | verifyPublic => rfl
  | secret | blob => cases h

/-- KEY EXPORT PUBLIC answers the first check of its row of R10 that fails. -/
theorem serveKeyExportPublic_fails {u : State} {identity : Nat} {i : Byte} {status : Status}
    (h : u.slotFailure i.toNat identity exportRow = some status) : serveKeyExportPublic identity [i] u = refuse status u := by
  have hc : (findSlot i.toNat u >>= fun k => checkKind publicKinds k >>= fun _ => checkAnswers identity k >>= fun _ =>
      pure k.material.publicBytes) = .error status :=
    findSlot_fails h _ fun k _ hk => check_bind_fails hk fun hk => check_bind_fails hk fun hk => by cases hk
  simp only [serveKeyExportPublic, readByte_one, layout_some, Checked.bind_ok, hc, answered_error]

/-- KEY EXPORT PUBLIC of a slot with a public key, for a requester of its answer set. -/
theorem serveKeyExportPublic_key {u : State} {identity : Nat} {i : Byte} {k : KeySlot} {key : Bytes} (hi : i.toNat ≤ 23)
    (hk : u.kept.slot i.toNat = some k) (hm : k.material.publicKey = some key) (ha : inSet k.answerSet identity = true) :
    serveKeyExportPublic identity [i] u = answer .ok key u := by
  obtain ⟨hkind, hbytes⟩ := KeyMaterial.publicKey_some hm
  simp only [serveKeyExportPublic, readByte_one, layout_some, Checked.bind_ok, findSlot_ok hi hk, checkKind, hkind, checkAnswers, ha,
    check_true, hbytes, Checked.pure_eq, answered_ok]

/-- A heard KEY EXPORT PUBLIC that fails a check of its row of R10 is refused with its status. -/
theorem keyExportPublic_refused {s : State} {identity i : Byte} {status : Status} (h : s.Hears identity [i])
    (hf : s.slotFailure i.toNat identity.toNat exportRow = some status) :
    ∃ t, exec (.keyExportPublic identity [i]) s = .next t ∧ Replies s identity status [] t :=
  request_refused h _ (checkRight_free nofun rfl rfl) rfl fun _ hu => serveKeyExportPublic_fails ((hu.slotFailure ..).trans hf)

/-! ## KEY INFO (R11) -/

theorem serveKeyInfo_slot {u : State} {identity : Nat} {i : Byte} (hi : i.toNat ≤ 23) :
    serveKeyInfo identity [i] u = answer .ok (u.slotInfo i.toNat) u := by
  simp [serveKeyInfo, hi]

theorem serveKeyInfo_beyond {u : State} {identity : Nat} {i : Byte} (hi : ¬ i.toNat ≤ 23) :
    serveKeyInfo identity [i] u = refuse .badArgument u := by
  simp [serveKeyInfo, hi]

/-- What KEY INFO shows of a slot is in the records and the suspensions. -/
theorem slotInfo_same {s t : State} (hk : t.kept = s.kept) (hs : t.keys = s.keys) (i : Nat) : t.slotInfo i = s.slotInfo i := by
  simp only [State.slotInfo, hk, State.suspended, hs]

/-! ## BLOB READ (R13) -/

/-- BLOB READ answers the first check of its row of R10 that fails. -/
theorem serveBlobRead_fails {u : State} {identity : Nat} {payload : Bytes} {i offset count : Nat} {status : Status}
    (hp : readBlobRead payload = some (i, offset, count)) (h : u.slotFailure i identity blobRow = some status) :
    serveBlobRead identity payload u = refuse status u := by
  have hc : (findSlot i u >>= fun k => checkKind [.blob] k >>= fun _ => checkUsage useReadBlob k >>= fun _ =>
      checkAnswers identity k >>= fun _ => checkBinding k u >>= fun _ =>
      check (decide (offset ≤ k.material.blobLength)) .badArgument >>= fun _ =>
      pure (le16 k.material.blobLength ++ slice offset (min count 1024) k.material.blobData)) = .error status := by
    refine findSlot_fails h _ fun k _ hk => check_bind_fails hk fun hk => ?_
    have hk := (firstFailure_cons_true _ _).symm.trans hk
    exact check_bind_fails hk fun hk => check_bind_fails hk fun hk => check_bind_fails hk fun hk => by cases hk
  simp only [serveBlobRead, hp, layout_some, Checked.bind_ok, hc, answered_error]

/-- The checks of BLOB READ's row of R10 pass on a readable blob, and on no other slot. -/
theorem blobRow_passes {s : State} {i identity : Nat} {k : KeySlot} {data : Bytes} (hi : i ≤ 23) (hk : s.kept.slot i = some k)
    (hm : k.material = .blob data) :
    s.slotFailure i identity blobRow = none ↔
      inSet k.usage useReadBlob = true ∧ inSet k.answerSet identity = true ∧ s.ism.bindingMatches k.binding = true := by
  rw [State.slotFailure, failureOnSlot_of_slot hi hk]
  simp [firstFailure_cons_none, blobRow, hm, KeyMaterial.kind]

/-- BLOB READ of a readable blob: the data from the offset, or a refusal of an offset above the length. -/
theorem serveBlobRead_blob {u : State} {identity : Nat} {payload data : Bytes} {i offset count : Nat} {k : KeySlot}
    (hp : readBlobRead payload = some (i, offset, count)) (hi : i ≤ 23) (hk : u.kept.slot i = some k)
    (hm : k.material = .blob data) (hf : u.slotFailure i identity blobRow = none) :
    serveBlobRead identity payload u =
      if offset ≤ data.length then answer .ok (le16 data.length ++ (data.drop offset).take (min count 1024)) u
      else refuse .badArgument u := by
  obtain ⟨husage, hanswers, hbinding⟩ := (blobRow_passes hi hk hm).1 hf
  simp only [serveBlobRead, hp, layout_some, Checked.bind_ok, findSlot_ok hi hk, checkKind, hm, KeyMaterial.kind, checkUsage, husage,
    checkAnswers, hanswers, checkBinding, hbinding, KeyMaterial.blobLength, KeyMaterial.blobData]
  by_cases ho : offset ≤ data.length
  · simp [ho, slice]
  · simp [ho]

/-- Settles O5: each request by its service, the refusals by the first failure of their rows of R10. -/
theorem slotsAreRead : Obligations.SlotsAreRead := by
  refine ⟨fun s identity i h => ⟨fun hi => ?_, fun hi hk => ?_, fun k hi hk hm => ?_, fun k key hi hk hm => ?_⟩,
    fun s identity i h => ?_, fun s identity payload c h hc => ?_, fun s identity i status h hf => keyExportPublic_refused h hf,
    fun s identity i offset count ho hc h => ⟨fun status hf => ?_, fun k data hf hk hm hlong => ?_⟩,
    fun s identity i offset count k data ho hc h hi hk hm husage hanswers hbinding hfit => ?_⟩
  · exact keyExportPublic_refused h (failureOnSlot_beyond hi _)
  · exact keyExportPublic_refused h (failureOnSlot_empty hi hk _)
  · refine keyExportPublic_refused h ((failureOnSlot_of_slot hi hk _).trans ?_)
    rw [show exportRow.kinds = publicKinds from rfl, KeyMaterial.publicKey_none hm]
    rfl
  · by_cases ha : inSet k.answerSet identity.toNat = true
    · simp only [if_pos ha]
      exact request_answered h (checkRight_free nofun rfl rfl) rfl fun u hu =>
        serveKeyExportPublic_key hi (by rw [hu.kept, hk]) hm ha
    · simp only [if_neg ha]
      refine keyExportPublic_refused h ((failureOnSlot_of_slot hi hk _).trans ?_)
      rw [show exportRow.kinds = publicKinds from rfl, (KeyMaterial.publicKey_some hm).1, Bool.eq_false_iff.2 ha]
      rfl
  · by_cases hi : i.toNat ≤ 23
    · simp only [if_pos hi]
      exact request_answered h (checkRight_free nofun rfl rfl) rfl fun u hu => by
        rw [serveKeyInfo_slot hi, slotInfo_same hu.kept hu.keys]
    · simp only [if_neg hi]
      exact request_refused h _ (checkRight_free nofun rfl rfl) rfl fun _ _ => serveKeyInfo_beyond hi
  · rcases hc with ⟨hc, hl⟩ | ⟨rfl, hl⟩
    · simp only [List.mem_cons, List.not_mem_nil, or_false] at hc
      rcases hc with rfl | rfl
      · exact request_refused h _ (checkRight_free nofun rfl rfl) rfl fun _ _ => by
          simp [serveKeyExportPublic, readByte_refused hl]
      · exact request_refused h _ (checkRight_free nofun rfl rfl) rfl fun _ _ => by
          simp [serveKeyInfo, readByte_refused hl]
    · exact request_refused h _ (checkRight_free nofun rfl rfl) rfl fun _ _ => by
        simp [serveBlobRead, readBlobRead_refused hl]
  · exact request_refused h _ (checkRight_free nofun rfl rfl) rfl fun _ hu =>
      serveBlobRead_fails (readBlobRead_le16 i ho hc) ((hu.slotFailure ..).trans hf)
  · obtain ⟨_, hi, _⟩ := failureOnSlot_none hf
    exact request_refused h _ (checkRight_free nofun rfl rfl) rfl fun u hu => by
      rw [serveBlobRead_blob (readBlobRead_le16 i ho hc) hi (by rw [hu.kept, hk]) hm ((hu.slotFailure ..).trans hf),
        if_neg (Nat.not_le.2 hlong)]
  · exact request_answered h (checkRight_free nofun rfl rfl) rfl fun u hu => by
      have hf := (blobRow_passes hi hk hm).2 ⟨husage, hanswers, hbinding⟩
      rw [serveBlobRead_blob (readBlobRead_le16 i ho hc) hi (by rw [hu.kept, hk]) hm ((hu.slotFailure ..).trans hf), if_pos hfit]

end Sys2Proof.Machine
end

section
/-! SUPPORT. Proofs for chapter 1, part 4: the requests that create a slot (R17, R18, R19, R20). -/

namespace Sys2Proof.Machine

/-! ## The creating write (check 7 of R17) -/

/-- While no owner reset is begun, a creating write is handed over, but for a slot of class OWNER in an UNCLAIMED vault (R17, R144). -/
theorem createSlot_eq {u : State} {i : Nat} {k : KeySlot} (hr : u.resetBegun = false) (after : After) :
    createSlot i k after u =
      if k.slotClass = .owner ∧ u.kept.vault.claimed = false then refuse .wrongState u else u.handOver (.slotPut i k) after := by
  by_cases hu : k.slotClass = .owner ∧ u.kept.vault.claimed = false
  · simp [createSlot, hr, Records.mayHold, hu]
  · rw [if_neg hu]
    exact createSlot_open (fun ho => ⟨by simpa [ho] using hu, hr⟩) after

/-- A heard request that comes to a creating write: refused for class OWNER in an UNCLAIMED vault, and handed over otherwise. -/
theorem request_creates {s : State} {identity : Byte} {payload : Bytes} {code : Req} {serve : Nat → Bytes → State → State} {i : Nat}
    {k : KeySlot} {after : After} (h : s.Hears identity payload) (hr : checkRight code identity.toNat payload s = .ok ())
    (hv : code.usesVault payload = false) (hb : s.resetBegun = false)
    (hs : ∀ u, Serving s code identity payload u → serve identity.toNat payload u = createSlot i k after u) :
    ∃ t, event true (request code serve identity payload) s = .next t ∧
      if k.slotClass = .owner ∧ s.kept.vault.claimed = false then Replies s identity .wrongState [] t
      else Hands s code identity payload (.slotPut i k) after s.biu t := by
  have created : ∀ u, Serving s code identity payload u → serve identity.toNat payload u =
      if k.slotClass = .owner ∧ s.kept.vault.claimed = false then refuse .wrongState u else u.handOver (.slotPut i k) after :=
    fun u hu => by rw [hs u hu, createSlot_eq (hu.resetBegun.trans hb), hu.kept]
  by_cases hu : k.slotClass = .owner ∧ s.kept.vault.claimed = false
  · simp only [if_pos hu] at created ⊢
    exact request_refused h serve hr hv created
  · simp only [if_neg hu] at created ⊢
    exact request_hands h hr hv created

/-! ## Kinds (check 6 of R17) -/

theorem checkPolicyKind_ok {kinds : List KeyKind} {p : Policy} {kind : KeyKind} (hk : KeyKind.ofCode p.kindCode = some kind)
    (hm : kind ∈ kinds) : checkPolicyKind kinds p = .ok () := by
  have : (kinds.any fun k => KeyKind.ofCode p.kindCode == some k) = true := List.any_eq_true.2 ⟨kind, hm, by simp [hk]⟩
  simp [checkPolicyKind, this]

theorem checkPolicyKind_fails {kinds : List KeyKind} {p : Policy} (h : ∀ kind ∈ kinds, KeyKind.ofCode p.kindCode ≠ some kind) :
    checkPolicyKind kinds p = .error .badArgument := by
  have : (kinds.any fun k => KeyKind.ofCode p.kindCode == some k) = false := by simpa using h
  simp [checkPolicyKind, this]

/-! ## KEY GENERATE (R18) -/

theorem serveKeyGenerate_eq {identity : Nat} {payload : Bytes} {i : Nat} {p : Policy} (hp : readSlotPolicy payload = some (i, p))
    (u : State) :
    serveKeyGenerate identity payload u = served (checkCreate i identity p u >>= fun _ => checkPolicyKind generatedKinds p >>= fun _ =>
      pure (beginGeneration i p false u)) u := by
  simp only [serveKeyGenerate, hp, layout_some, Checked.bind_ok]

/-! ## KEY IMPORT (R19) -/

theorem serveKeyImport_eq {identity : Nat} {payload key : Bytes} {i w : Nat} {p : Policy}
    (hp : readImport payload = some (i, p, w, key)) (u : State) :
    serveKeyImport identity payload u = served (checkCreate i identity p u >>= fun c =>
      importMaterial p w identity key u >>= fun found =>
      pure (createSlot i (p.newSlot c found.1 u.ism)
        (importAfter (found.2.map u.kept.slotPlace) (slotStateCode (some .active) :: found.1.publicBytes)) u)) u := by
  simp only [serveKeyImport, hp, layout_some, Checked.bind_ok]

/-- A plain public key is imported where it lies on the curve (R19). -/
theorem importMaterial_public {p : Policy} (hk : KeyKind.ofCode p.kindCode = some .verifyPublic) (w identity : Nat) (key : Bytes)
    (u : State) :
    importMaterial p w identity key u =
      if Config.pointOnCurve key = true then .ok (.verifyPublic key, none) else .error .badArgument := by
  simp only [importMaterial, hk, check_bind, Checked.pure_eq]

/-- A blob is not imported (R19). -/
theorem importMaterial_blob {p : Policy} (hk : KeyKind.ofCode p.kindCode = some .blob) (w identity : Nat) (key : Bytes) (u : State) :
    importMaterial p w identity key u = .error .badArgument := by
  simp only [importMaterial, hk]

/-- A pair or a secret is imported as its wrapped key unwraps, and its unwrapping slot is to be counted (R19). -/
theorem importMaterial_wrapped {p : Policy} {kind : KeyKind} (hk : KeyKind.ofCode p.kindCode = some kind)
    (hg : kind = .signingPair ∨ kind = .secret) (w identity : Nat) (key : Bytes) (u : State) :
    importMaterial p w identity key u = (unwrapImport kind w identity key u >>= fun m => pure (m, some w)) := by
  rcases hg with rfl | rfl <;> simp only [importMaterial, hk]

/-- A wrapped key is refused by the first check of R10 on the unwrapping slot that fails. -/
theorem unwrapImport_fails {u : State} {w identity : Nat} {status : Status} (h : u.slotFailure w identity unwrapRow = some status)
    (kind : KeyKind) (wrapped : Bytes) : unwrapImport kind w identity wrapped u = .error status := by
  have hc : checkUse w identity .secret useUnwrap u = .error status := checkUse_fails h
  simp only [unwrapImport, hc, Checked.bind_error]

/-- A wrapped key of no fitting length is refused under a slot that passes R10 (R19). -/
theorem unwrapImport_length {u : State} {w identity : Nat} {k : KeySlot} (hu : checkUse w identity .secret useUnwrap u = .ok k)
    {wrapped : Bytes} (hl : wrapped = [] ∨ 256 < wrapped.length) (kind : KeyKind) :
    unwrapImport kind w identity wrapped u = .error .badArgument := by
  have hc : (decide (1 ≤ wrapped.length) && decide (wrapped.length ≤ 256)) = false := by
    rcases hl with rfl | hl
    · rfl
    · simp [Nat.not_le.2 hl]
  simp only [unwrapImport, hu, Checked.bind_ok, hc, check_false, Checked.bind_error]

/-- A wrapped key of a fitting length unwraps under the secret of a slot that passes R10 (R19). -/
theorem unwrapImport_unwraps {u : State} {w identity : Nat} {k : KeySlot} (hu : checkUse w identity .secret useUnwrap u = .ok k)
    {secret wrapped : Bytes} (hm : k.material = .secret (some secret)) (h1 : 1 ≤ wrapped.length) (h2 : wrapped.length ≤ 256)
    (kind : KeyKind) :
    unwrapImport kind w identity wrapped u = layout ((Config.unwrapKey secret wrapped).bind (importedMaterial kind)) := by
  simp only [unwrapImport, hu, Checked.bind_ok, h1, h2, decide_true, Bool.and_self, check_true, hm, KeyMaterial.secretBytes]

/-! ## BLOB WRITE of a first chunk (R20) -/

theorem serveBlobWrite_first {identity : Nat} {slot : Byte} {rest chunk : Bytes} {p : Policy}
    (hp : takePolicy rest = some (p, chunk)) (u : State) :
    serveBlobWrite identity (slot :: 0 :: 0 :: rest) u = served (checkCreate slot.toNat identity p u >>= fun c =>
      checkPolicyKind [.blob] p >>= fun _ => check (chunkFits chunk) .badArgument >>= fun _ =>
      pure (createSlot slot.toNat (p.newSlot c (.blob chunk) u.ism) (.replyBlob slot.toNat false) u)) u := by
  have offset : takeNumber 2 (0 :: 0 :: rest) = some (0, rest) := takeNumber_le16 0 rest (by decide)
  simp only [serveBlobWrite, takeNumber_one, layout_some, Checked.bind_ok, offset, if_true, firstChunk, hp]

theorem chunkFits_ok {chunk : Bytes} (h1 : 1 ≤ chunk.length) (h2 : chunk.length ≤ 512) : chunkFits chunk = true := by
  simp [chunkFits, h1, h2]

theorem chunkFits_fails {chunk : Bytes} (h : chunk = [] ∨ 512 < chunk.length) : chunkFits chunk = false := by
  rcases h with rfl | h
  · rfl
  · simp [chunkFits, Nat.not_le.2 h]

/-! ## The creating requests together -/

/-- The command of an identity with a payload is a creating request that names a slot and a policy (R18, R19, R20). -/
def Creates (c : Instr) (identity : Byte) (payload : Bytes) (i : Nat) (p : Policy) : Prop :=
  (c = .keyGenerate identity payload ∧ readSlotPolicy payload = some (i, p)) ∨
    (∃ u key, c = .keyImport identity payload ∧ readImport payload = some (i, p, u, key)) ∨
    (∃ (slot : Byte) (rest chunk : Bytes), c = .blobWrite identity payload ∧ payload = slot :: 0 :: 0 :: rest ∧
      slot.toNat = i ∧ takePolicy rest = some (p, chunk))

/-- A creating request answers the first of the checks 1 to 5 of R17 that fails. -/
theorem creating_refused {s : State} {identity : Byte} {payload : Bytes} {i : Nat} {p : Policy} {c : Instr} {status : Status}
    (h : s.Hears identity payload) (hr : s.hasRight identity.toNat rightAdmin = true ∨ s.hasRight identity.toNat rightOwner = true)
    (hc : Creates c identity payload i p) (hf : s.createFailure i identity.toNat p = some status) :
    ∃ t, exec c s = .next t ∧ Replies s identity status [] t := by
  have refused : ∀ u : State, u.kept = s.kept → checkCreate i identity.toNat p u = .error status := fun u hk =>
    checkCreate_fails ((createFailure_same hk _ _ _).trans hf)
  rcases hc with ⟨rfl, hp⟩ | ⟨w, key, rfl, hp⟩ | ⟨slot, rest, chunk, rfl, rfl, rfl, hp⟩
  · exact request_refused h _ (checkRight_manager nofun rfl rfl hr) rfl fun u hu => by
      rw [serveKeyGenerate_eq hp, refused u hu.kept, Checked.bind_error, served_error]
  · exact request_refused h _ (checkRight_manager nofun rfl rfl hr) rfl fun u hu => by
      rw [serveKeyImport_eq hp, refused u hu.kept, Checked.bind_error, served_error]
  · exact request_refused h _ (checkRight_manager nofun rfl rfl hr) rfl fun u hu => by
      rw [serveBlobWrite_first hp, refused u hu.kept, Checked.bind_error, served_error]

/-- A KEY IMPORT that passes R17, whose key is refused, is refused with that status. -/
theorem keyImport_refused {s : State} {identity : Byte} {payload key : Bytes} {i w : Nat} {p : Policy} {c : SlotClass} {status : Status}
    (h : s.Hears identity payload) (hp : readImport payload = some (i, p, w, key)) (hc : s.Creatable i identity.toNat p c)
    (hm : ∀ u, Serving s .keyImport identity payload u → importMaterial p w identity.toNat key u = .error status) :
    ∃ t, exec (.keyImport identity payload) s = .next t ∧ Replies s identity status [] t :=
  request_refused h _ (checkRight_class nofun rfl rfl hc.right) rfl fun u hu => by
    rw [serveKeyImport_eq hp, checkCreate_ok hu.kept hc, Checked.bind_ok, hm u hu, Checked.bind_error, served_error]

/-- A KEY IMPORT that passes R17, whose key is taken, comes to its creating write. -/
theorem keyImport_creates {s : State} {identity : Byte} {payload key : Bytes} {i w : Nat} {p : Policy} {c : SlotClass}
    {m : KeyMaterial} {counted : Option Nat} (h : s.Hears identity payload) (hp : readImport payload = some (i, p, w, key))
    (hc : s.Creatable i identity.toNat p c) (hb : s.resetBegun = false)
    (hm : ∀ u, Serving s .keyImport identity payload u → importMaterial p w identity.toNat key u = .ok (m, counted)) :
    ∃ t, exec (.keyImport identity payload) s = .next t ∧
      if c = .owner ∧ s.kept.vault.claimed = false then Replies s identity .wrongState [] t
      else Hands s .keyImport identity payload (.slotPut i (p.newSlot c m s.ism))
        (importAfter (counted.map s.kept.slotPlace) (slotStateCode (some .active) :: m.publicBytes)) s.biu t :=
  request_creates (k := p.newSlot c m s.ism) h (checkRight_class nofun rfl rfl hc.right) rfl hb fun u hu => by
    rw [serveKeyImport_eq hp, checkCreate_ok hu.kept hc, Checked.bind_ok, hm u hu, Checked.bind_ok, Checked.pure_eq, served_ok,
      hu.kept, hu.ism]

/-- Settles O6: each creating request by its service, after the checks of R17 that they share. -/
theorem creatingRequestsCreateTheSlot : Obligations.CreatingRequestsCreateTheSlot := by
  refine ⟨fun s identity payload i p c h hp hc hk => ?_, fun s identity payload key i p c h hp hc hk hb => ?_,
    fun s identity i rest chunk p c h hp hc hk h1 h2 hb => ?_,
    fun s identity payload wrapped secret i w p c kind k h hp hc hk hg hu hm h1 h2 hb => ?_,
    fun s identity payload i p c h hr hc status hf => creating_refused h hr hc hf,
    fun s identity payload i p class_ c h hc hk => ?_, fun s identity payload wrapped i w p c h hp hc hk => ?_⟩
  · refine request_generates h (checkRight_class nofun rfl rfl hc.right) rfl fun u hu => ?_
    have kind : checkPolicyKind generatedKinds p = .ok () := by
      rcases hk with hk | hk <;> exact checkPolicyKind_ok hk (by decide)
    rw [serveKeyGenerate_eq hp, checkCreate_ok hu.kept hc, Checked.bind_ok, kind, Checked.bind_ok, Checked.pure_eq, served_ok]
  · by_cases curve : Config.pointOnCurve key = true
    · simp only [if_neg (show ¬ Config.pointOnCurve key = false by simp [curve])]
      exact keyImport_creates h hp hc hb fun u _ => by rw [importMaterial_public hk, if_pos curve]
    · simp only [if_pos (Bool.eq_false_iff.2 curve)]
      exact keyImport_refused h hp hc fun u _ => by rw [importMaterial_public hk, if_neg curve]
  · exact request_creates (k := p.newSlot c (.blob chunk) s.ism) h (checkRight_class nofun rfl rfl hc.right) rfl hb fun u hu => by
      rw [serveBlobWrite_first hp, checkCreate_ok hu.kept hc, Checked.bind_ok, checkPolicyKind_ok hk (by decide), Checked.bind_ok,
        chunkFits_ok h1 h2, check_true, Checked.bind_ok, Checked.pure_eq, served_ok, hu.ism]
  · have unwraps : ∀ u, Serving s .keyImport identity payload u → unwrapImport kind w identity.toNat wrapped u =
        layout ((Config.unwrapKey secret wrapped).bind (importedMaterial kind)) := fun u hs =>
      unwrapImport_unwraps (checkUse_ok hs.kept hs.ism hs.keys hu) hm h1 h2 kind
    cases found : (Config.unwrapKey secret wrapped).bind (importedMaterial kind) with
    | none =>
      exact keyImport_refused h hp hc fun u hs => by
        rw [importMaterial_wrapped hk hg, unwraps u hs, found, layout_none, Checked.bind_error]
    | some m =>
      exact keyImport_creates h hp hc hb fun u hs => by
        rw [importMaterial_wrapped hk hg, unwraps u hs, found, layout_some, Checked.bind_ok, Checked.pure_eq]
  · rcases hk with ⟨rfl, hp, hk⟩ | ⟨w, key, rfl, hp, hk⟩ | ⟨slot, rest, chunk, rfl, rfl, rfl, hp, hk⟩
    · exact request_refused h _ (checkRight_class nofun rfl rfl hc.right) rfl fun u hu => by
        rw [serveKeyGenerate_eq hp, checkCreate_ok hu.kept hc, Checked.bind_ok,
          checkPolicyKind_fails (by simpa [generatedKinds] using hk), Checked.bind_error, served_error]
    · exact keyImport_refused h hp hc fun u _ => importMaterial_blob hk w _ key u
    · refine request_refused h _ (checkRight_class nofun rfl rfl hc.right) rfl fun u hu => ?_
      rw [serveBlobWrite_first hp, checkCreate_ok hu.kept hc, Checked.bind_ok]
      by_cases blob : KeyKind.ofCode p.kindCode = some .blob
      · rw [checkPolicyKind_ok blob (by decide), Checked.bind_ok, chunkFits_fails (hk.resolve_left (not_not_intro blob)), check_false,
          Checked.bind_error, served_error]
      · rw [checkPolicyKind_fails (by simpa using blob), Checked.bind_error, served_error]
  · obtain ⟨kind, hkind, hg⟩ : ∃ kind, KeyKind.ofCode p.kindCode = some kind ∧ (kind = .signingPair ∨ kind = .secret) := by
      rcases hk with hk | hk
      · exact ⟨_, hk, .inl rfl⟩
      · exact ⟨_, hk, .inr rfl⟩
    refine ⟨fun status hf => ?_, fun hf hl => ?_⟩
    · exact keyImport_refused h hp hc fun u hu => by
        rw [importMaterial_wrapped hkind hg, unwrapImport_fails ((hu.slotFailure ..).trans hf), Checked.bind_error]
    · obtain ⟨k, usable⟩ := checkUse_passes hf
      exact keyImport_refused h hp hc fun u hu => by
        rw [importMaterial_wrapped hkind hg, unwrapImport_length (checkUse_ok hu.kept hu.ism hu.keys usable) hl, Checked.bind_error]

end Sys2Proof.Machine
end

section
/-! SUPPORT. Proofs for chapter 1, part 5: the requests that manage a slot (R20, R21, R22). -/

namespace Sys2Proof.Machine

/-! ## Retirement and erasure of a slot's record (R22) -/

/-- Retirement takes a slot in its life, and leaves every other slot and record (R5, R22). -/
theorem Records.slotRetire_retires {r : Records} {p : Place} {k : KeySlot} (h : r.slotAt p = some k) :
    (r.apply (.slotRetire p)).slot p.index = some k.retired ∧
      (∀ j, j ≠ p.index → (r.apply (.slotRetire p)).slot j = r.slot j) ∧
      r.apply (.slotRetire p) = { r with slots := (r.apply (.slotRetire p)).slots } := by
  rw [show r.apply (.slotRetire p) = r.updateSlot p KeySlot.retired from Records.apply_ok (Records.recheck_slotRetire_ok h)]
  obtain ⟨changed, others, _⟩ := Records.updateSlot_some h KeySlot.retired
  exact ⟨changed, others, r.updateSlot_frame p _⟩

/-- Erasure empties a slot in its life, and leaves every other slot and record (R22). -/
theorem Records.slotErase_empties {r : Records} {p : Place} {k : KeySlot} (h : r.slotAt p = some k) :
    (r.apply (.slotErase p)).slot p.index = none ∧
      (∀ j, j ≠ p.index → (r.apply (.slotErase p)).slot j = r.slot j) ∧
      r.apply (.slotErase p) = { r with
        slots := (r.apply (.slotErase p)).slots, slotLives := (r.apply (.slotErase p)).slotLives } := by
  rw [show r.apply (.slotErase p) = r.emptySlot p from rfl]
  obtain ⟨emptied, others, _⟩ := Records.emptySlot_some h
  exact ⟨emptied, others, r.emptySlot_frame p⟩

/-- A slot that has become EMPTY is not erased again (log entry 53). -/
theorem Records.slotErase_empty {r : Records} {p : Place} (h : r.slotAt p = none) : r.apply (.slotErase p) = r := by
  rw [show r.apply (.slotErase p) = r.emptySlot p from rfl]
  simp [Records.emptySlot, h]

/-! ## The end of a write that is answered -/

/-- Only an ACTIVE slot stays suspended (R7). -/
theorem pruneMarks_suspended {s : State} {i : Nat} (h : s.kept.slotActive i = false) : (pruneMarks s).suspended i = false := by
  by_cases hi : i < 24 <;> simp [State.suspended, pruneMarks, h, hi]

/-- The state in which an item has been written and its writer goes on. -/
def State.withWritten (op : StoreOp) (s : State) : State :=
  { s with kept := s.kept.written op, store := { s.store with making := none } }

/-- Where no bank selection is awaited, a write that is made and then answered leaves its records, its effects and its reply (R182). -/
theorem complete_answers {s : State} {op : StoreOp} {after : After} {bytes : Bytes} {u : State} (hp : s.powered = true)
    (hm : s.store.making = some ⟨op, after⟩) (hr : s.kept.recheck op = .ok ())
    (hu : completionEffects s.kept op (s.withWritten op) = u) (hg : u.gate.selection = .idle)
    (ha : goOn after u = answer .ok bytes u) :
    exec .storeWriteComplete s = .next (answer .ok bytes u).settle := by
  unfold State.withWritten at hu
  rw [exec_writeMade hp hm hr, hu, ha, interruptStep_idle (by exact hg)]

/-- Where no bank selection is awaited, a write that is not made leaves everything but its reply (log entry 46). -/
theorem complete_refuses {s : State} {op : StoreOp} {after : After} {status : Status} (hp : s.powered = true)
    (hm : s.store.making = some ⟨op, after⟩) (hr : s.kept.recheck op = .error status) (hg : s.gate.selection = .idle)
    (ha : ∀ u, goOnFailed status after u = refuse status u) :
    exec .storeWriteComplete s = .next (refuse status { s with store := { s.store with making := none } }).settle := by
  rw [exec_writeRefused hp hm hr, ha, interruptStep_idle (by exact hg)]

/-- A reply to the request in service stands after the event. -/
theorem answer_answers (status : Status) (bytes : Bytes) (u : State) : (answer status bytes u).settle.Answers u.asker status bytes :=
  ⟨rfl, rfl, rfl⟩

/-- A write that is not made leaves the records and is answered with the check that fails (log entry 46). -/
theorem write_refuses {s : State} {op : StoreOp} {after : After} {status : Status} (hp : s.powered = true)
    (hg : s.gate.selection = .idle) (hm : s.store.making = some ⟨op, after⟩) (hr : s.kept.recheck op = .error status)
    (ha : ∀ u, goOnFailed status after u = refuse status u) :
    ∃ t, exec .storeWriteComplete s = .next t ∧ t.store = { s.store with making := none } ∧ t.kept = s.kept ∧
      t.Answers s.asker status [] :=
  ⟨_, complete_refuses hp hm hr hg ha, rfl, rfl, answer_answers _ _ _⟩

/-! ## A managed slot -/

theorem Serving.managed {s u : State} {code : Req} {identity : Byte} {payload : Bytes} (h : Serving s code identity payload u)
    {i who : Nat} {k : KeySlot} (hm : s.Managed i who k) : checkManaged i who u = .ok k :=
  checkManaged_ok h.kept hm

/-- A write to a managed slot is handed over (R144). -/
theorem Serving.handsSlot {s u : State} {code : Req} {identity : Byte} {payload : Bytes} (h : Serving s code identity payload u)
    {i who : Nat} {k : KeySlot} (hm : s.Managed i who k) (op : StoreOp) (after : After) :
    handSlot k.slotClass op after u = u.handOver op after :=
  handSlot_open (fun ho => h.resetBegun.trans (hm.reset ho)) op after

/-! ## KEY RESTRICT (R21) -/

theorem serveKeyRestrict_eq {identity : Nat} {payload bound : Bytes} {usage answers chains : Byte} {i limit form : Nat}
    (hp : readRestrict payload = some (i, usage, answers, limit, form, chains, bound)) (u : State) :
    serveKeyRestrict identity payload u = served (checkManaged i identity u >>= fun k => checkActive k >>= fun _ =>
      check (bindingFits form chains) .badArgument >>= fun _ =>
      check (k.narrowsTo usage answers (givenLimit limit) (givenBinding form chains bound u.ism)) .badArgument >>= fun _ =>
      pure (handSlot k.slotClass (.slotRestrict (u.kept.slotPlace i) usage answers (givenLimit limit)
        (givenBinding form chains bound u.ism)) (.replyKeyInfo i) u)) u := by
  simp only [serveKeyRestrict, hp, layout_some, Checked.bind_ok]

theorem checkActive_ok {k : KeySlot} (h : k.state = .active) : checkActive k = .ok () := by
  simp [checkActive, h]

theorem checkActive_retired {k : KeySlot} (h : k.state = .retired) : checkActive k = .error .wrongState := by
  simp [checkActive, h, check]

/-- A set that a member is added to is not within the one held. -/
theorem subset_false {small large : Byte} {u : Nat} (hs : inSet small u = true) (hl : inSet large u = false) :
    subset small large = false := by
  cases h : subset small large with
  | false => rfl
  | true => rw [inSet_of_subset h u hs] at hl; cases hl

/-- A binding form that fits gives a binding, but for the form of an absent one (R21). -/
theorem givenBinding_some {form : Nat} {chains : Byte} (hf : bindingFits form chains = true) (h : form ≠ 0) (bound : Bytes) (m : Ism) :
    (givenBinding form chains bound m).isNone = false := by
  match form with
  | 0 => exact absurd rfl h
  | 1 | 2 => rfl
  | n + 3 => simp [bindingFits] at hf

/-- A policy that is not narrower than the one held, each way in which R21 names it. -/
theorem KeySlot.narrowsTo_false {k : KeySlot} {usage answers chains : Byte} {limit form : Nat} (hf : bindingFits form chains = true)
    (h : usage = 0 ∨ (∃ u < 8, inSet usage u = true ∧ inSet k.usage u = false) ∨ answers = 0 ∨
      (∃ other < 8, inSet answers other = true ∧ inSet k.answerSet other = false) ∨ (form ≠ 0 ∧ k.binding ≠ none) ∨
      (∃ held, k.useLimit = some held ∧ held < limit)) (bound : Bytes) (m : Ism) :
    k.narrowsTo usage answers (givenLimit limit) (givenBinding form chains bound m) = false := by
  rcases h with rfl | ⟨u, _, hs, hl⟩ | rfl | ⟨u, _, hs, hl⟩ | ⟨h0, hb⟩ | ⟨held, hl, hlt⟩
  · simp [KeySlot.narrowsTo]
  · simp [KeySlot.narrowsTo, subset_false hs hl]
  · simp [KeySlot.narrowsTo]
  · simp [KeySlot.narrowsTo, subset_false hs hl]
  · simp [KeySlot.narrowsTo, givenBinding_some hf h0, hb]
  · have narrows : limitNarrows (some held) (givenLimit limit) = false := by
      simp [givenLimit, show limit ≠ 0 by omega, limitNarrows, hlt]
    simp [KeySlot.narrowsTo, hl, narrows]

/-- A policy that narrows the one held (R21). -/
theorem KeySlot.narrowsTo_true {k : KeySlot} {usage answers : Byte} {limit : Option Nat} {binding : Option Binding} (hu : usage ≠ 0)
    (hus : subset usage k.usage = true) (ha : answers ≠ 0) (has : subset answers k.answerSet = true)
    (hb : binding = none ∨ k.binding = none) (hl : ∀ held l, k.useLimit = some held → limit = some l → l ≤ held) :
    k.narrowsTo usage answers limit binding = true := by
  have limits : limitNarrows k.useLimit limit = true := by
    cases h : k.useLimit with
    | none => rfl
    | some held =>
      cases h' : limit with
      | none => rfl
      | some l => simpa [limitNarrows] using hl held l h h'
  have bindings : (binding.isNone || k.binding.isNone) = true := by
    rcases hb with rfl | hb
    · rfl
    · simp [hb]
  simp only [KeySlot.narrowsTo, bne_iff_ne.2 hu, hus, bne_iff_ne.2 ha, has, limits, bindings, Bool.and_self]

/-- A new limit that is carried narrows the one held where it is no greater (R21). -/
theorem givenLimit_le {limit held l : Nat} (h : limit ≤ held) (hl : givenLimit limit = some l) : l ≤ held := by
  unfold givenLimit at hl
  split at hl
  · cases hl
  · cases hl
    exact h

/-- A KEY RESTRICT that does not pass its checks on an ACTIVE slot is BAD_ARGUMENT (R21). -/
theorem serveKeyRestrict_bad {u : State} {identity : Nat} {payload bound : Bytes} {usage answers chains : Byte} {i limit form : Nat}
    {k : KeySlot} (hp : readRestrict payload = some (i, usage, answers, limit, form, chains, bound))
    (hc : checkManaged i identity u = .ok k) (ha : k.state = .active)
    (h : usage = 0 ∨ (∃ u < 8, inSet usage u = true ∧ inSet k.usage u = false) ∨ answers = 0 ∨
      (∃ other < 8, inSet answers other = true ∧ inSet k.answerSet other = false) ∨ bindingFits form chains = false ∨
      (form ≠ 0 ∧ k.binding ≠ none) ∨ (∃ held, k.useLimit = some held ∧ held < limit)) :
    serveKeyRestrict identity payload u = refuse .badArgument u := by
  rw [serveKeyRestrict_eq hp, hc, Checked.bind_ok, checkActive_ok ha, Checked.bind_ok]
  cases fits : bindingFits form chains with
  | false => rw [check_false, Checked.bind_error, served_error]
  | true =>
    rw [check_true, Checked.bind_ok, KeySlot.narrowsTo_false fits (by simpa [fits] using h), check_false, Checked.bind_error, served_error]

/-! ## KEY RETIRE and KEY ERASE (R22) -/

theorem serveKeyRetire_eq (identity : Nat) (i : Byte) (u : State) :
    serveKeyRetire identity [i] u = served (checkManaged i.toNat identity u >>= fun k =>
      pure (if k.state = .retired then answer .ok [slotStateCode (some .retired)] u
        else handSlot k.slotClass (.slotRetire (u.kept.slotPlace i.toNat)) (.reply [slotStateCode (some .retired)]) u)) u := by
  simp only [serveKeyRetire, readByte_one, layout_some, Checked.bind_ok]

theorem serveKeyErase_eq (identity : Nat) (i : Byte) (u : State) :
    serveKeyErase identity [i] u = served (checkManaged i.toNat identity u >>= fun k =>
      pure (handSlot k.slotClass (.slotErase (u.kept.slotPlace i.toNat)) (.reply []) u)) u := by
  simp only [serveKeyErase, readByte_one, layout_some, Checked.bind_ok]

/-! ## BLOB WRITE of a later chunk (R20) -/

theorem serveBlobWrite_later {identity offset : Nat} {i : Byte} {chunk : Bytes} (h0 : 0 < offset) (h : offset < 65536) (u : State) :
    serveBlobWrite identity (i :: (le16 offset ++ chunk)) u = served (laterChunk i.toNat identity offset chunk u) u := by
  simp only [serveBlobWrite, takeNumber_one, layout_some, Checked.bind_ok, takeNumber_le16 offset chunk h, Nat.ne_of_gt h0, if_false]

/-- A chunk of no fitting length is refused before the slot is looked at (R20). -/
theorem laterChunk_unfit {chunk : Bytes} (h : chunk = [] ∨ 512 < chunk.length) (i identity offset : Nat) (u : State) :
    laterChunk i identity offset chunk u = .error .badArgument := by
  simp only [laterChunk, chunkFits_fails h, Bool.and_false, check_false, Checked.bind_error]

/-- The two checks of room are one in the order of R20. -/
theorem checkRoom_fails {offset : Nat} {chunk : Bytes} {k : KeySlot} {status : Status}
    (h : firstFailure [(offset == k.material.blobLength && decide (offset + chunk.length ≤ 1024), Status.badArgument)] = some status) :
    checkRoom offset chunk k = .error status := by
  rw [firstFailure_cons] at h
  split at h
  · cases h
  · cases h
    unfold checkRoom
    cases hl : (offset == k.material.blobLength) with
    | false => rfl
    | true => simp_all [check]

theorem checkRoom_ok {offset : Nat} {chunk : Bytes} {k : KeySlot} (hl : offset = k.material.blobLength)
    (h : offset + chunk.length ≤ 1024) : checkRoom offset chunk k = .ok () := by
  simp [checkRoom, ← hl, h]

/-- A chunk of a fitting length is refused by the first check of R20 that fails, in its order (log entry 59). -/
theorem laterChunk_fails {u : State} {i identity offset : Nat} {chunk : Bytes} {status : Status} (hf : chunkFits chunk = true)
    (h : u.appendFailure i identity offset chunk = some status) : laterChunk i identity offset chunk u = .error status := by
  unfold laterChunk
  by_cases hi : i ≤ 23
  · simp only [hi, decide_true, hf, Bool.and_self, check_true, Checked.bind_ok]
    refine findSlot_fails h _ fun k _ hk => ?_
    rw [show (k.material.kind == .blob) = [KeyKind.blob].contains k.material.kind
      by cases k.material.kind <;> rfl] at hk
    refine check_bind_fails hk fun hk => check_bind_fails hk fun hk => check_bind_fails hk fun hk => ?_
    rw [checkRoom_fails hk, Checked.bind_error]
  · rw [State.appendFailure, failureOnSlot_beyond (by omega)] at h
    simp only [hi, decide_false, Bool.false_and, check_false, Checked.bind_error, Option.some.inj h]

theorem appendFailure_same {s t : State} (hk : t.kept = s.kept) (i identity offset : Nat) (chunk : Bytes) :
    t.appendFailure i identity offset chunk = s.appendFailure i identity offset chunk := by
  simp only [State.appendFailure, State.failureOnSlot, hk, hasRight_of_kept hk]

/-- A chunk of a fitting length that follows the data of an ACTIVE blob is handed over (R20). -/
theorem laterChunk_appends {s u : State} {code : Req} {identity : Byte} {payload : Bytes} (hs : Serving s code identity payload u)
    {i : Nat} {k : KeySlot} {chunk data : Bytes} (hm : s.Managed i identity.toNat k) (hb : k.material = .blob data)
    (ha : k.state = .active) (h1 : 1 ≤ chunk.length) (h2 : chunk.length ≤ 512) (hl : data.length + chunk.length ≤ 1024) :
    laterChunk i identity.toNat data.length chunk u =
      .ok (u.handOver (.slotAppend (s.kept.slotPlace i) data.length chunk) (.replyBlob i false)) := by
  have room : checkRoom data.length chunk k = .ok () := checkRoom_ok (by rw [hb]; rfl) hl
  have right : u.hasRight identity.toNat k.slotClass.right = true := (hasRight_of_kept hs.kept _ _).trans hm.right
  simp only [laterChunk, hm.index.1, hm.index.2, decide_true, chunkFits_ok h1 h2, Bool.and_self, check_true, Checked.bind_ok,
    findSlot_ok hm.index.2 (show u.kept.slot i = some k by rw [hs.kept, hm.slot]), checkKind, hb, KeyMaterial.kind,
    show [KeyKind.blob].contains .blob = true from rfl, checkActive_ok ha, right, room, hs.handsSlot hm, hs.kept, Checked.pure_eq]

end Sys2Proof.Machine
end

section
/-! SUPPORT. What every command does to the records (R182): a service keeps them, with every law of a plain effect, and so does every event but the
end of a store write, power-on and power loss, which give them the item being made or nothing. -/

namespace Sys2Proof.Machine

/-! ## The services that hand over, begin or answer -/

theorem beginGeneration_regular (i : Nat) (p : Policy) (provision : Bool) (s : State) : Regular s (beginGeneration i p provision s) :=
  .plain rfl

theorem serveClearAttention_regular (i : Nat) (p : Bytes) (s : State) : Regular s (serveClearAttention i p s) :=
  served_regular (Checked.gives_bind fun _ _ => Checked.gives_pure (.after (answer_regular _ _ _) (clearFlags_regular _ _)))

theorem serveSetAlertMask_regular (i : Nat) (p : Bytes) (s : State) : Regular s (serveSetAlertMask i p s) :=
  served_regular (Checked.gives_bind fun _ _ => Checked.gives_pure (.plain rfl))

theorem serveSetParameter_regular (i : Nat) (p : Bytes) (s : State) : Regular s (serveSetParameter i p s) :=
  served_regular (Checked.gives_bind fun ⟨_, q, _⟩ _ =>
    Checked.gives_pure (handOver_regular _ _ _ (fun _ => by cases q <;> trivial)))

/-! ### Keys -/

theorem serveKeyGenerate_regular (i : Nat) (p : Bytes) (s : State) : Regular s (serveKeyGenerate i p s) :=
  served_regular (Checked.gives_bind fun _ _ => Checked.gives_bind fun _ _ => Checked.gives_bind fun _ _ =>
    Checked.gives_pure (beginGeneration_regular _ _ _ _))

theorem serveKeyImport_regular (i : Nat) (p : Bytes) (s : State) : Regular s (serveKeyImport i p s) :=
  served_regular (Checked.gives_bind fun _ _ => Checked.gives_bind fun _ _ => Checked.gives_bind fun ⟨_, counted⟩ _ =>
    Checked.gives_pure (createSlot_regular _ _ _ _ (by cases counted <;> nofun)))

theorem serveKeySign_regular (i : Nat) (p : Bytes) (s : State) : Regular s (serveKeySign i p s) :=
  served_regular (Checked.gives_bind fun ⟨_, data, _⟩ _ => Checked.gives_bind fun _ _ => Checked.gives_bind fun _ _ =>
    Checked.gives_pure (match data with
      | true => beginDigest_regular _ _ _ _
      | false => placeSign_regular _ _ _ _))

theorem serveKeyDerive_regular (i : Nat) (p : Bytes) (s : State) : Regular s (serveKeyDerive i p s) :=
  served_regular (Checked.gives_bind fun _ _ => Checked.gives_bind fun _ _ => Checked.gives_bind fun _ _ =>
    Checked.gives_pure (beginDigest_regular _ _ _ _))

theorem serveKeyRestrict_regular (i : Nat) (p : Bytes) (s : State) : Regular s (serveKeyRestrict i p s) :=
  served_regular (Checked.gives_bind fun _ _ => Checked.gives_bind fun _ _ => Checked.gives_bind fun _ _ => Checked.gives_bind fun _ _ =>
    Checked.gives_bind fun _ _ => Checked.gives_pure (handSlot_regular _ _ _ _ trivial nofun))

theorem serveKeyRetire_regular (i : Nat) (p : Bytes) (s : State) : Regular s (serveKeyRetire i p s) := by
  refine served_regular (Checked.gives_bind fun _ _ => Checked.gives_bind fun _ _ => Checked.gives_pure ?_)
  split
  · exact answer_regular _ _ _
  · exact handSlot_regular _ _ _ _ trivial nofun

theorem serveKeyErase_regular (i : Nat) (p : Bytes) (s : State) : Regular s (serveKeyErase i p s) :=
  served_regular (Checked.gives_bind fun _ _ => Checked.gives_bind fun _ _ =>
    Checked.gives_pure (handSlot_regular _ _ _ _ trivial nofun))

theorem serveBlobWrite_regular (i : Nat) (p : Bytes) (s : State) : Regular s (serveBlobWrite i p s) := by
  refine served_regular (Checked.gives_bind fun _ _ => Checked.gives_bind fun ⟨offset, _⟩ _ => ?_)
  dsimp only
  split
  · exact Checked.gives_bind fun _ _ => Checked.gives_bind fun _ _ => Checked.gives_bind fun _ _ => Checked.gives_bind fun _ _ =>
      Checked.gives_pure (createSlot_regular _ _ _ _ nofun)
  · exact Checked.gives_bind fun _ _ => Checked.gives_bind fun _ _ => Checked.gives_bind fun _ _ => Checked.gives_bind fun _ _ =>
      Checked.gives_bind fun _ _ => Checked.gives_bind fun _ _ => Checked.gives_pure (handSlot_regular _ _ _ _ trivial nofun)

theorem serveMakeStatement_regular (i : Nat) (p : Bytes) (s : State) : Regular s (serveMakeStatement i p s) :=
  served_regular (Checked.gives_bind fun _ _ => Checked.gives_bind fun _ _ => Checked.gives_bind fun _ _ => Checked.gives_bind fun _ _ =>
    Checked.gives_pure (beginDigest_regular _ _ _ _))

/-! ### Identities, stages and measurement -/

/-- A check that has passed holds. -/
theorem check_passed {holds : Bool} {failure : Status} {u : Unit} (h : check holds failure = .ok u) : holds = true := by
  cases holds with
  | true => rfl
  | false => cases h

/-- An extension that passes its checks finds the log below its limit (R36). -/
theorem checkExtend_room {chain : Nat} {m : Ism} (h : checkExtend chain m = .ok ()) : m.log.length < 36 := by
  unfold checkExtend at h
  cases hw : extendWindow chain with
  | none => rw [hw] at h; cases h
  | some w =>
    simp only [hw, Checked.bind_ok, check_bind] at h
    split at h
    · exact of_decide_eq_true (check_passed h)
    · cases h

theorem serveExtendDigest_regular (i : Nat) (p : Bytes) (s : State) : Regular s (serveExtendDigest i p s) :=
  served_regular (Checked.gives_bind fun _ _ => Checked.gives_bind fun _ _ => Checked.gives_bind fun _ h =>
    Checked.gives_pure (.after (answer_regular _ _ _) (appendRequest_regular _ _ _ _ _ (checkExtend_room h))))

theorem serveExtendData_regular (i : Nat) (p : Bytes) (s : State) : Regular s (serveExtendData i p s) :=
  served_regular (Checked.gives_bind fun _ _ => Checked.gives_bind fun _ _ => Checked.gives_bind fun _ _ =>
    Checked.gives_pure (beginDigest_regular _ _ _ _))

theorem extendDataDone_regular (chain : Nat) (tag d : Bytes) (s : State) : Regular s (extendDataDone chain tag d s) :=
  served_regular (Checked.gives_bind fun _ h =>
    Checked.gives_pure (.after (answer_regular _ _ _) (appendRequest_regular _ _ _ _ _ (checkExtend_room h))))

theorem serveAdvanceStage_regular (i : Nat) (p : Bytes) (s : State) : Regular s (serveAdvanceStage i p s) := by
  refine served_regular (Checked.gives_bind fun target _ => Checked.gives_bind fun _ h => Checked.gives_pure ?_)
  exact .after (answer_regular _ _ _) (advanceTo_regular target s (of_decide_eq_true (check_passed h)))

theorem serveRequesterWrite_regular (i : Nat) (p : Bytes) (s : State) : Regular s (serveRequesterWrite i p s) :=
  served_regular (Checked.gives_bind fun _ _ => Checked.gives_bind fun _ _ => Checked.gives_pure (handOver_regular _ _ _))

/-! ### Images and the Boot Gate -/

theorem serveVerifyStaged_regular (i : Nat) (p : Bytes) (s : State) : Regular s (serveVerifyStaged i p s) :=
  served_regular (Checked.gives_bind fun _ _ => Checked.gives_bind fun _ _ => Checked.gives_bind fun _ _ => Checked.gives_bind fun _ _ =>
    Checked.gives_pure (handOver_regular _ _ _ (fun _ => nofun)))

theorem serveAbortImage_regular (i : Nat) (p : Bytes) (s : State) : Regular s (serveAbortImage i p s) := by
  refine served_regular (Checked.gives_bind fun _ _ => ?_)
  have discards : ∀ t, Regular t (discardStaged t) := fun t => handOver_regular _ _ _ (fun _ => nofun)
  unfold abortStaged
  split
  · exact Checked.gives_ok (answer_regular _ _ _)
  · exact Checked.gives_ok (.after (discards _) (stopVerification_regular s))
  · exact Checked.gives_ok (discards s)
  · exact Checked.gives_ok (discards s)
  · exact Checked.gives_ok (handOver_regular _ _ _)
  · exact Checked.gives_error

theorem serveArmTrial_regular (i : Nat) (p : Bytes) (s : State) : Regular s (serveArmTrial i p s) :=
  served_regular (Checked.gives_bind fun _ _ => Checked.gives_bind fun _ _ => Checked.gives_bind fun _ _ => Checked.gives_bind fun _ _ =>
    Checked.gives_pure (handOver_regular _ _ _))

theorem serveConfirmImage_regular (i : Nat) (p : Bytes) (s : State) : Regular s (serveConfirmImage i p s) := by
  refine served_regular (Checked.gives_bind fun _ _ => Checked.gives_bind fun _ _ => Checked.gives_bind fun _ _ =>
    Checked.gives_bind fun _ _ => Checked.gives_bind fun _ _ => ?_)
  split
  · exact Checked.gives_bind fun _ _ => Checked.gives_pure (handOver_regular _ _ _)
  · exact Checked.gives_bind fun _ _ => Checked.gives_pure (handOver_regular _ _ _)

/-- A reboot is made pending where the SoC runs (R82). -/
theorem pendReboot_regular {s : State} (h : s.held = false) : Regular s (pendReboot s) :=
  ⟨rfl, rfl, rfl, rfl, rfl, id, fun l => { l with }, fun l => ⟨l.measured, l.scanned, l.verified⟩, fun _ l => { l with
    reboot := fun _ => h }⟩

theorem serveRebootRouter_regular (i : Nat) (p : Bytes) (s : State) : Regular s (serveRebootRouter i p s) := by
  refine served_regular (Checked.gives_bind fun _ _ => Checked.gives_bind fun _ h => Checked.gives_pure ?_)
  refine .after (answer_regular _ _ _) (pendReboot_regular ?_)
  rcases Bool.or_eq_true_iff.1 (check_passed h) with e | e <;> simp [State.held, beq_iff_eq.1 e]

/-! ### The Owner Vault -/

theorem serveVaultClaim_regular (i : Nat) (p : Bytes) (s : State) : Regular s (serveVaultClaim i p s) :=
  served_regular (Checked.gives_bind fun _ _ => Checked.gives_bind fun _ _ => Checked.gives_bind fun _ _ =>
    Checked.gives_pure (.after (handOver_regular _ _ _) (consume_regular _ _)))

theorem serveCredEnroll_regular (i : Nat) (p : Bytes) (s : State) : Regular s (serveCredEnroll i p s) := by
  refine served_regular (Checked.gives_bind fun _ _ => Checked.gives_bind fun _ _ => Checked.gives_bind fun _ _ => Checked.gives_pure ?_)
  split
  · exact beginVerifier_regular _ _ _ _
  · exact writeEnrolled_regular _ _ _

theorem serveCredCheck_regular (i : Nat) (p : Bytes) (s : State) : Regular s (serveCredCheck i p s) :=
  served_regular (Checked.gives_bind fun _ _ => Checked.gives_bind fun _ _ => Checked.gives_bind fun _ _ => Checked.gives_bind fun _ _ =>
    Checked.gives_bind fun _ _ => Checked.gives_pure (charge_regular _ _ _ _ _))

theorem serveCredChange_regular (i : Nat) (p : Bytes) (s : State) : Regular s (serveCredChange i p s) := by
  refine served_regular (Checked.gives_bind fun _ _ => Checked.gives_bind fun ⟨_, c⟩ _ => ?_)
  dsimp only
  split
  · refine Checked.gives_bind fun _ _ => Checked.gives_bind fun _ _ => Checked.gives_bind fun _ _ => Checked.gives_pure ?_
    split
    · exact .after (beginVerifier_regular _ _ _ _) (consume_regular _ _)
    · exact charge_regular _ _ _ _ _
  · exact Checked.gives_bind fun _ _ => Checked.gives_bind fun _ _ => Checked.gives_bind fun _ _ => Checked.gives_bind fun _ _ =>
      Checked.gives_pure (.after (handOver_regular _ _ _) (consume_regular _ _))

theorem serveCredRemove_regular (i : Nat) (p : Bytes) (s : State) : Regular s (serveCredRemove i p s) :=
  served_regular (Checked.gives_bind fun _ _ => Checked.gives_bind fun _ _ => Checked.gives_bind fun _ _ => Checked.gives_bind fun _ _ =>
    Checked.gives_pure (.after (handOver_regular _ _ _) (consume_regular _ _)))

theorem serveOwnerReset_regular (i : Nat) (p : Bytes) (s : State) : Regular s (serveOwnerReset i p s) :=
  served_regular (Checked.gives_bind fun _ _ => Checked.gives_bind fun _ _ =>
    Checked.gives_pure (.after (beginReset_regular _ _) (consume_regular _ _)))

/-! ### The indicator and the Reaction Table -/

theorem serveSetIndicator_regular (i : Nat) (p : Bytes) (s : State) : Regular s (serveSetIndicator i p s) := by
  refine served_regular (Checked.gives_bind fun form _ => ?_)
  cases form with
  | some _ => exact Checked.gives_pure (.plain rfl)
  | none => exact Checked.gives_pure (.plain rfl)

theorem serveReactionWrite_regular (i : Nat) (p : Bytes) (s : State) : Regular s (serveReactionWrite i p s) :=
  served_regular (Checked.gives_bind fun _ _ => Checked.gives_pure (handOver_regular _ _ _))

theorem servePatternWrite_regular (i : Nat) (p : Bytes) (s : State) : Regular s (servePatternWrite i p s) :=
  served_regular (Checked.gives_bind fun _ _ => Checked.gives_pure (handOver_regular _ _ _))

/-! ### The factory requests -/

theorem serveProvisionSlot_regular (i : Nat) (p : Bytes) (s : State) : Regular s (serveProvisionSlot i p s) := by
  refine served_regular (Checked.gives_bind fun _ _ => Checked.gives_bind fun ⟨form, _⟩ _ => Checked.gives_bind fun _ _ => ?_)
  split
  · exact Checked.gives_bind fun _ _ => Checked.gives_bind fun _ _ => Checked.gives_bind fun _ _ => Checked.gives_bind fun _ _ =>
      Checked.gives_pure (beginGeneration_regular _ _ _ _)
  · exact Checked.gives_bind fun _ _ => Checked.gives_bind fun _ _ => Checked.gives_bind fun _ _ => Checked.gives_bind fun _ _ =>
      Checked.gives_bind fun _ _ => Checked.gives_bind fun _ _ => Checked.gives_pure (createSlot_regular _ _ _ _ nofun)
  · refine Checked.gives_bind fun ⟨offset, _⟩ _ => ?_
    dsimp only
    split
    · exact Checked.gives_bind fun _ _ => Checked.gives_bind fun _ _ => Checked.gives_bind fun _ _ => Checked.gives_bind fun _ _ =>
        Checked.gives_pure (createSlot_regular _ _ _ _ nofun)
    · exact Checked.gives_bind fun _ _ => Checked.gives_bind fun _ _ => Checked.gives_bind fun _ _ => Checked.gives_bind fun _ _ =>
        Checked.gives_bind fun _ _ => Checked.gives_pure (handSlot_regular _ _ _ _ trivial nofun)
  · refine Checked.gives_bind fun _ _ => ?_
    split
    · exact Checked.gives_pure (handSlot_regular _ _ _ _ trivial nofun)
    · exact Checked.gives_pure (answer_regular _ _ _)
  · exact Checked.gives_error

theorem serveProvisionCredential_regular (i : Nat) (p : Bytes) (s : State) : Regular s (serveProvisionCredential i p s) := by
  refine served_regular (Checked.gives_bind fun _ _ => Checked.gives_bind fun _ _ => Checked.gives_bind fun _ _ => Checked.gives_pure ?_)
  split
  · exact beginVerifier_regular _ _ _ _
  · exact writeProvisioned_regular _ _ _

theorem serveProvisionLayout_regular (i : Nat) (p : Bytes) (s : State) : Regular s (serveProvisionLayout i p s) :=
  served_regular (Checked.gives_bind fun _ _ => Checked.gives_pure (handOver_regular _ _ _))

theorem readRegions_length {n : Nat} {bytes : Bytes} {regions : List Region} (h : readRegions n bytes = some regions) :
    regions.length = n := by
  induction n generalizing bytes regions with
  | zero =>
    simp only [readRegions, Option.map_eq_some_iff] at h
    obtain ⟨_, _, rfl⟩ := h
    rfl
  | succ n ih =>
    simp only [readRegions, Option.bind_eq_bind, Option.bind_eq_some_iff, Option.pure_def, Option.some.injEq] at h
    obtain ⟨_, _, more, hmore, rfl⟩ := h
    rw [List.length_cons, ih hmore]

/-- PROVISION GOLDEN carries at most 8 regions (R188). -/
theorem readGolden_regions {payload : Bytes} {epoch build : Nat} {regions : List Region}
    (h : readGolden payload = some (epoch, build, regions)) : regions.length ≤ 8 := by
  simp only [readGolden, Option.bind_eq_bind, Option.bind_eq_some_iff, Prod.exists, Option.pure_def] at h
  obtain ⟨_, _, _, _, _, _, count, _, _, h⟩ := h
  split at h
  · obtain ⟨found, hr, e⟩ := Option.bind_eq_some_iff.1 h
    cases e
    rw [readRegions_length hr]
    omega
  · cases h

theorem serveProvisionGolden_regular (i : Nat) (p : Bytes) (s : State) : Regular s (serveProvisionGolden i p s) := by
  refine served_regular (Checked.gives_bind fun ⟨epoch, build, regions⟩ h => Checked.gives_bind fun _ _ =>
    Checked.gives_pure (handOver_regular _ _ _ fun _ => ?_))
  cases hr : readGolden p with
  | none => rw [hr] at h; cases h
  | some read =>
    rw [hr] at h
    cases h
    exact readGolden_regions hr

theorem serveLockFactory_regular (i : Nat) (p : Bytes) (s : State) : Regular s (serveLockFactory i p s) :=
  served_regular (Checked.gives_bind fun _ _ => Checked.gives_bind fun _ _ => Checked.gives_pure (handOver_regular _ _ _))

end Sys2Proof.Machine
end

section
/-! SUPPORT. No command writes the records but the end of a store write, power-on and power loss (R182), which make the item being made or leave
the records as they are. -/

namespace Sys2Proof.Machine

/-! ## What goes on after a write keeps the records -/

theorem completionEffects_kept (old : Records) (op : StoreOp) (s : State) : (completionEffects old op s).kept = s.kept := by
  cases op with
  | credPut record =>
    simp only [completionEffects]
    split <;> rfl
  | credValue p value clear restart => cases clear <;> cases restart <;> rfl
  | patternPut number p =>
    simp only [completionEffects, patternWritten]
    split <;> rfl
  | bootParam p n =>
    simp only [completionEffects, paramWritten]
    split <;> rfl
  | stagedPut record => cases record <;> rfl
  | _ => rfl

theorem whilePresent_kept {p : Place} {effect : State → State} {s : State} (h : (effect s).kept = s.kept) :
    (whilePresent p effect s).kept = s.kept := by
  unfold whilePresent
  split
  · exact h
  · rfl

theorem failureEffects_kept (op : StoreOp) (s : State) : (failureEffects op s).kept = s.kept := by
  cases op with
  | credMatch p => exact whilePresent_kept rfl
  | credDecay p interval => exact whilePresent_kept rfl
  | stagedPut record => cases record <;> rfl
  | _ => rfl

theorem serveVaultStatus_regular (i : Nat) (p : Bytes) (s : State) : Regular s (serveVaultStatus i p s) := answered_regular _ _

theorem serveCredRetrieve_regular (i : Nat) (p : Bytes) (s : State) : Regular s (serveCredRetrieve i p s) := answered_regular _ _

theorem serveReadParameter_regular (i : Nat) (p : Bytes) (s : State) : Regular s (serveReadParameter i p s) := answered_regular _ _

theorem serveVault_regular (r : Request) (s : State) : Regular s (serveVault r s) := by
  unfold serveVault
  split
  · exact serveVaultStatus_regular _ _ _
  · exact serveVaultClaim_regular _ _ _
  · exact serveCredEnroll_regular _ _ _
  · exact serveCredCheck_regular _ _ _
  · exact serveCredRetrieve_regular _ _ _
  · exact serveCredChange_regular _ _ _
  · exact serveCredRemove_regular _ _ _
  · exact serveOwnerReset_regular _ _ _
  · exact serveProvisionCredential_regular _ _ _
  · exact serveSetParameter_regular _ _ _
  · exact serveReadParameter_regular _ _ _
  · exact .refl s

theorem vaultFreed_regular (s : State) : Regular s (vaultFreed s) := by
  unfold vaultFreed
  dsimp only
  split
  · exact .after (serveVault_regular _ _) (.plain rfl)
  · exact .plain rfl

theorem decayEnded_regular (i : Nat) (s : State) : Regular s (decayEnded i s) := by
  unfold decayEnded
  split
  · exact beginDecay_regular _ _
  · exact vaultFreed_regular _

/-- A request that is refused or has an effect that keeps the records. -/
theorem served_kept {result : Checked State} {s : State} (h : result.Gives fun t => t.kept = s.kept) : (served result s).kept = s.kept := by
  unfold served
  split
  · exact h _ rfl
  · rfl

theorem handSlot_kept (c : SlotClass) (op : StoreOp) (a : After) (s : State) : (handSlot c op a s).kept = s.kept := by
  unfold handSlot
  split <;> rfl

theorem writeSlot_kept (p : Place) (op : StoreOp) (a : After) (s : State) : (writeSlot p op a s).kept = s.kept :=
  served_kept (Checked.gives_bind fun _ _ => Checked.gives_bind fun _ _ => Checked.gives_pure (handSlot_kept _ _ _ _))

theorem createSlot_kept (i : Nat) (k : KeySlot) (a : After) (s : State) : (createSlot i k a s).kept = s.kept := by
  unfold createSlot
  split
  · rfl
  · split <;> rfl

theorem releaseHeld_kept (s : State) : (releaseHeld s).kept = s.kept := by
  unfold releaseHeld
  split
  · rfl
  · exact createSlot_kept _ _ _ _
  · split
    · exact writeSlot_kept _ _ _ _
    · rfl

theorem beginCompare_regular (p : Place) (before : Nat) (candidate : Bytes) (newValue : Option Bytes) (s : State) :
    Regular s (beginCompare p before candidate newValue s) := by
  unfold beginCompare
  split
  · exact beginVerifier_regular _ _ _ _
  · exact refuse_regular _ _

theorem goOn_kept (a : After) (s : State) : (goOn a s).kept = s.kept := by
  cases a with
  | countUnwrap p payload => exact writeSlot_kept _ _ _ _
  | compare p before candidate newValue => exact (beginCompare_regular _ _ _ _ _).kept
  | reactionWrite hold =>
    cases hold with
    | true => exact (holdSoc_regular s).kept
    | false => rfl
  | accept requester => exact (acceptVerification_regular _ _).kept
  | trialSelected => exact (selectTrial_keeps s).kept
  | decayed i => exact (decayEnded_regular i s).kept
  | resetDone request =>
    refine (vaultFreed_regular _).kept.trans ((releaseHeld_kept _).trans ?_)
    cases request <;> rfl
  | _ => rfl

theorem goOnFailed_kept (status : Status) (a : After) (s : State) : (goOnFailed status a s).kept = s.kept := by
  cases a with
  | reactionWrite hold =>
    cases hold with
    | true => exact (holdSoc_regular s).kept
    | false => rfl
  | trialSelected => exact (selectActive_keeps s).kept
  | decayed i => exact (decayEnded_regular i s).kept
  | resetDone request =>
    refine (vaultFreed_regular _).kept.trans ((releaseHeld_kept _).trans ?_)
    cases request <;> rfl
  | _ => rfl

/-! ## The part's own events -/

theorem failAttempt_kept (s : State) : (failAttempt s).kept = s.kept := by
  unfold failAttempt
  dsimp only
  split
  · exact (startOfMeasurement_keeps _ _).kept
  · split <;> rfl

theorem failOrReboot_kept (s : State) : (failOrReboot s).kept = s.kept := by
  unfold failOrReboot
  split
  · exact (startOfMeasurement_keeps _ _).kept
  · exact failAttempt_kept s

theorem socRestarted_kept (s : State) : (socRestarted s).kept = s.kept := by
  unfold socRestarted
  split
  · exact (startOfMeasurement_keeps _ _).kept
  · exact failOrReboot_kept s

theorem credMismatched_kept (i before : Nat) (c : Credential) (s : State) : (credMismatched i before c s).kept = s.kept := by
  unfold credMismatched
  refine (fire_regular _ _ _).kept.trans ?_
  split <;> rfl

theorem compared_kept (p : Place) (before : Nat) (newValue : Option Bytes) (value : Bytes) (s : State) :
    (compared p before newValue value s).kept = s.kept := by
  unfold compared
  split
  · split
    · cases newValue <;> rfl
    · exact credMismatched_kept _ _ _ _
  · rfl

theorem linkDigestDone_kept (d : Bytes) (s : State) : (linkDigestDone d s).kept = s.kept := by
  unfold linkDigestDone
  split
  · exact (placeSign_regular _ _ _ _).kept
  · exact (countUse_regular _ _ _ _).kept
  · exact (extendDataDone_regular _ _ _ _).kept
  · exact (placeSign_regular _ _ _ _).kept
  · exact compared_kept _ _ _ _ _
  · rfl
  · exact (writeEnrolled_regular _ _ _).kept
  · exact (writeProvisioned_regular _ _ _).kept
  all_goals rfl

theorem contextDone_kept (which : CtxId) (s : State) : (contextDone which s).kept = s.kept := by
  cases which with
  | reader => exact (endJobIfDone_regular s).kept
  | link => exact linkDigestDone_kept _ _

theorem absorbNow_kept (s : State) : (absorbNow s).kept = s.kept := by
  unfold absorbNow blockAbsorbed
  split
  · dsimp only
    split
    · exact contextDone_kept _ _
    · rfl
  · rfl

theorem engineDone_kept (s : State) : (engineDone s).kept = s.kept := by
  unfold engineDone
  split
  · unfold signatureDone
    split
    · exact (countUse_regular _ _ _ _).kept
    · exact (countUse_regular _ _ _ _).kept
    · rfl
  · exact (verdictDone_regular _ _).kept
  · rfl

theorem socCommand_kept (command : FlashCommand) (s : State) : (socCommand command s).kept = s.kept := by
  unfold socCommand
  split
  · exact (fire_regular _ _ _).kept
  · split <;> rfl

theorem gatePress_kept (s : State) : (gatePress s).kept = s.kept := by
  unfold gatePress
  split
  · refine (startOfMeasurement_keeps _ _).kept.trans ?_
    split <;> rfl
  · rfl

theorem debouncedRelease_kept (s : State) : (debouncedRelease s).kept = s.kept := by
  unfold debouncedRelease
  dsimp only
  split
  · exact gatePress_kept _
  · rfl

theorem powerOnFrom_kept (kept : Records) (pressed : Bool) (draws : Nat) (pending : List Instr) :
    (powerOnFrom kept pressed draws pending).kept = kept := (startOfMeasurement_keeps _ _).kept

/-! ## Every command -/

/-- The records stay, or take the item being made. -/
def State.RecordsStayOrTakeItem (s t : State) : Prop :=
  t.kept = s.kept ∨ ∃ item, s.store.making = some item ∧ t.kept = s.kept.apply item.op

theorem event_records {condition : Bool} {effect : State → State} {s t : State} (h : event condition effect s = .next t)
    (he : s.RecordsStayOrTakeItem (effect s)) : s.RecordsStayOrTakeItem t := by
  unfold event at h
  split at h
  · obtain rfl := Host.Outcome.next.inj h
    exact he
  · obtain rfl := Host.Outcome.next.inj h
    exact .inl rfl

theorem event_kept {condition : Bool} {effect : State → State} {s t : State} (h : event condition effect s = .next t)
    (he : (effect s).kept = s.kept) : s.RecordsStayOrTakeItem t := event_records h (.inl he)

theorem request_kept {serve : Nat → Bytes → State → State} (hv : ∀ i p s, Regular s (serve i p s)) {code : Req} {identity : Byte}
    {payload : Bytes} {s t : State} (h : event true (request code serve identity payload) s = .next t) : s.RecordsStayOrTakeItem t :=
  event_kept h (request_regular hv code identity payload s).kept

theorem complete_records (item : StoreItem) (s : State) :
    (complete item s).kept = s.kept ∨ (complete item s).kept = s.kept.apply item.op := by
  unfold complete
  dsimp only
  rw [(interruptStep_regular _).kept]
  split
  · right
    exact (goOn_kept _ _).trans (completionEffects_kept _ _ _)
  · left
    exact goOnFailed_kept _ _ _

theorem failItem_kept (item : StoreItem) (s : State) : (failItem item s).kept = s.kept :=
  (interruptStep_regular _).kept.trans ((goOnFailed_kept _ _ _).trans (failureEffects_kept _ _))

theorem completeNow_records (s : State) : s.RecordsStayOrTakeItem (completeNow s) := by
  unfold completeNow
  split
  · next item hm => exact (complete_records item s).imp_right fun h => ⟨item, hm, h⟩
  · exact .inl rfl

theorem failNow_kept (s : State) : (failNow s).kept = s.kept := by
  unfold failNow
  split
  · exact failItem_kept _ _
  · rfl

theorem keptAfterLoss_records (landed : Bool) (s : State) :
    s.keptAfterLoss landed = s.kept ∨ ∃ item, s.store.making = some item ∧ s.keptAfterLoss landed = s.kept.apply item.op := by
  unfold State.keptAfterLoss
  split
  · next item hm => exact .inr ⟨item, hm, rfl⟩
  · exact .inl rfl

theorem exec_records {c : Instr} {s t : State} (h : exec c s = .next t) : s.RecordsStayOrTakeItem t := by
  cases c with
  | powerOn landed =>
    obtain rfl := Host.Outcome.next.inj h
    rw [State.RecordsStayOrTakeItem, powerOnFrom_kept]
    exact keptAfterLoss_records landed s
  | powerLoss landed =>
    obtain rfl := Host.Outcome.next.inj h
    split
    · exact keptAfterLoss_records landed s
    · exact .inl rfl
  | storeWriteComplete => exact event_records h (completeNow_records s)
  | storeWriteFailed => exact event_kept h (failNow_kept s)
  | storeWriteStart => exact event_kept h rfl
  | bankSelection => exact event_kept h (selectNow_regular s).kept
  | attachDeadlineExpiry => exact event_kept h (failOrReboot_kept s)
  | bootCompleteDeadlineExpiry => exact event_kept h (failOrReboot_kept s)
  | holdDwellExpiry => exact event_kept h (startOfMeasurement_keeps _ _).kept
  | socRestart => exact event_kept h (socRestarted_kept s)
  | rebootTimerExpiry => exact event_kept h (startOfMeasurement_keeps _ _).kept
  | silenceWatchExpiry => exact event_kept h (fire_regular _ _ _).kept
  | scanTimerExpiry => exact event_kept h (scanExpiry_regular s).kept
  | deBlockAbsorbed => exact event_kept h (absorbNow_kept s)
  | frBurstStart => exact event_kept h (startBurst_regular s).kept
  | frBurstComplete bytes => exact event_kept h (burstRead_regular _ _).kept
  | seOperationComplete => exact event_kept h (engineDone_kept s)
  | keyMaterialGenerated => exact event_kept h (materialGenerated_regular s).kept
  | verificationDeadlineExpiry => exact event_kept h (reject_regular _ _).kept
  | socFlashCommand command => exact event_kept h (socCommand_kept _ _)
  | socFlashForward => exact event_kept h rfl
  | socFlashCsRise ready => exact event_kept h rfl
  | linkTransactionIgnored received => exact event_kept h (ignore_regular _ _ _).kept
  | badFrame frame => exact event_kept h (frameArrives_regular (receiveBad_regular frame) _ _).kept
  | frameTimeout received elapsed => exact event_kept h (timeOut_regular _ _).kept
  | overrun frame => exact event_kept h (overrunFrame_regular _ _ _).kept
  | poll clocked => exact event_kept h (poll_regular _ _ _).kept
  | btnLevelChange pressed =>
    obtain rfl := Host.Outcome.next.inj h
    refine .inl ?_
    split
    · rfl
    · split <;> rfl
  | debouncedPress => exact event_kept h rfl
  | debouncedRelease => exact event_kept h (debouncedRelease_kept s)
  | buttonHold => exact event_kept h (fire_regular _ _ _).kept
  | presenceWindowTimeout => exact event_kept h rfl
  | patternPeriodEnd source => exact event_kept h rfl
  | onTimeEnd => exact event_kept h rfl
  | ownerResetUpdate => exact event_kept h rfl
  | decayStep record => exact event_kept h rfl
  | clearAttention => exact request_kept serveClearAttention_regular h
  | setAlertMask => exact request_kept serveSetAlertMask_regular h
  | setParameter => exact request_kept serveSetParameter_regular h
  | keyGenerate => exact request_kept serveKeyGenerate_regular h
  | keyImport => exact request_kept serveKeyImport_regular h
  | keySign => exact request_kept serveKeySign_regular h
  | keyDerive => exact request_kept serveKeyDerive_regular h
  | keyRestrict => exact request_kept serveKeyRestrict_regular h
  | keyRetire => exact request_kept serveKeyRetire_regular h
  | keyErase => exact request_kept serveKeyErase_regular h
  | blobWrite => exact request_kept serveBlobWrite_regular h
  | extendDigest => exact request_kept serveExtendDigest_regular h
  | extendData => exact request_kept serveExtendData_regular h
  | advanceStage => exact request_kept serveAdvanceStage_regular h
  | requesterWrite => exact request_kept serveRequesterWrite_regular h
  | makeStatement => exact request_kept serveMakeStatement_regular h
  | verifyStaged => exact request_kept serveVerifyStaged_regular h
  | abortImage => exact request_kept serveAbortImage_regular h
  | armTrial => exact request_kept serveArmTrial_regular h
  | confirmImage => exact request_kept serveConfirmImage_regular h
  | rebootRouter => exact request_kept serveRebootRouter_regular h
  | vaultClaim => exact request_kept serveVaultClaim_regular h
  | credEnroll => exact request_kept serveCredEnroll_regular h
  | credCheck => exact request_kept serveCredCheck_regular h
  | credChange => exact request_kept serveCredChange_regular h
  | credRemove => exact request_kept serveCredRemove_regular h
  | ownerReset => exact request_kept serveOwnerReset_regular h
  | setIndicatorPattern => exact request_kept serveSetIndicator_regular h
  | setIndicatorClear => exact request_kept serveSetIndicator_regular h
  | reactionWrite => exact request_kept serveReactionWrite_regular h
  | patternWrite => exact request_kept servePatternWrite_regular h
  | provisionSlotGenerate => exact request_kept serveProvisionSlot_regular h
  | provisionSlotPublic => exact request_kept serveProvisionSlot_regular h
  | provisionSlotBlob => exact request_kept serveProvisionSlot_regular h
  | provisionSlotErase => exact request_kept serveProvisionSlot_regular h
  | provisionCredential => exact request_kept serveProvisionCredential_regular h
  | provisionLayout => exact request_kept serveProvisionLayout_regular h
  | provisionGolden => exact request_kept serveProvisionGolden_regular h
  | lockFactory => exact request_kept serveLockFactory_regular h
  | _ => exact request_kept (fun _ _ _ => answered_regular _ _) h

/-- No command widens the policy of a slot (R21). -/
theorem exec_narrower {c : Instr} {s t : State} {i : Nat} {k l : KeySlot} (h : exec c s = .next t) (hk : s.kept.slot i = some k)
    (hl : t.kept.slot i = some l) : k.Narrower l := by
  obtain same | ⟨item, _, made⟩ := exec_records h
  · rw [same, hk] at hl
    obtain rfl := Option.some.inj hl
    exact .refl k
  · rw [made] at hl
    exact Records.apply_narrower hk hl

end Sys2Proof.Machine
end

section
/-! SUPPORT. Proofs for chapter 1, part 6: the requests that manage a slot, from the frame to the write (R20, R21, R22). -/

namespace Sys2Proof.Machine

/-! ## Completion of a retirement and an erasure (R22, R182) -/

/-- A slot that has been retired or erased is not ACTIVE. -/
theorem Records.slotRetire_inactive {r : Records} {p : Place} {k : KeySlot} (h : r.slotAt p = some k) :
    (r.apply (.slotRetire p)).slotActive p.index = false := by
  simp [Records.slotActive, (Records.slotRetire_retires h).1, KeySlot.retired]

theorem Records.slotErase_inactive {r : Records} {p : Place} {k : KeySlot} (h : r.slotAt p = some k) :
    (r.apply (.slotErase p)).slotActive p.index = false := by
  rw [Records.slotActive, (Records.slotErase_empties h).1]

/-- A retirement or an erasure that completes leaves its slot without a suspension, and answers (R7, R22, R182). -/
theorem managedWrite_completes {s : State} {p : Place} {op : StoreOp} {payload : Bytes} {k : KeySlot} (hp : s.powered = true)
    (hg : s.gate.selection = .idle) (hop : op = .slotRetire p ∨ op = .slotErase p) (hm : s.store.making = some ⟨op, .reply payload⟩)
    (hk : s.kept.slotAt p = some k) :
    ∃ t, exec .storeWriteComplete s = .next t ∧ t.kept = s.kept.apply op ∧ t.suspended p.index = false ∧
      t.Answers s.asker .ok payload := by
  have made : s.kept.recheck op = .ok () ∧ (s.kept.apply op).slotActive p.index = false := by
    rcases hop with rfl | rfl
    · exact ⟨Records.recheck_slotRetire_ok hk, Records.slotRetire_inactive hk⟩
    · exact ⟨rfl, Records.slotErase_inactive hk⟩
  have written : s.kept.apply op = s.kept.written op := Records.apply_ok made.1
  rw [written] at made
  have effects : completionEffects s.kept op (s.withWritten op) = pruneMarks (s.withWritten op) := by
    rcases hop with rfl | rfl <;> rfl
  exact ⟨_, complete_answers hp hm made.1 effects hg rfl, written.symm, pruneMarks_suspended (s := s.withWritten op) made.2,
    answer_answers _ _ _⟩

/-! ## Refusals -/

/-- A heard KEY RESTRICT of a slot that cannot be managed is refused with the first check that fails (R21). -/
theorem keyRestrict_unmanaged {s : State} {identity : Byte} {payload bound : Bytes} {usage answers chains : Byte} {i limit form : Nat}
    {status : Status} (h : s.Hears identity payload)
    (hr : s.hasRight identity.toNat rightAdmin = true ∨ s.hasRight identity.toNat rightOwner = true)
    (hp : readRestrict payload = some (i, usage, answers, limit, form, chains, bound))
    (hf : s.manageFailure i identity.toNat = some status) :
    ∃ t, exec (.keyRestrict identity payload) s = .next t ∧ Replies s identity status [] t :=
  request_refused h _ (checkRight_manager nofun rfl rfl hr) rfl fun u hu => by
    rw [serveKeyRestrict_eq hp, checkManaged_fails ((manageFailure_same hu.kept ..).trans hf), Checked.bind_error, served_error]

/-- A heard KEY RESTRICT of a RETIRED slot is refused (R21). -/
theorem keyRestrict_retired {s : State} {identity : Byte} {payload bound : Bytes} {usage answers chains : Byte} {i limit form : Nat}
    {k : KeySlot} (h : s.Hears identity payload)
    (hr : s.hasRight identity.toNat rightAdmin = true ∨ s.hasRight identity.toNat rightOwner = true)
    (hp : readRestrict payload = some (i, usage, answers, limit, form, chains, bound))
    (hm : ∀ u, u.kept = s.kept → checkManaged i identity.toNat u = .ok k) (hk : k.state = .retired) :
    ∃ t, exec (.keyRestrict identity payload) s = .next t ∧ Replies s identity .wrongState [] t :=
  request_refused h _ (checkRight_manager nofun rfl rfl hr) rfl fun u hu => by
    rw [serveKeyRestrict_eq hp, hm u hu.kept, Checked.bind_ok, checkActive_retired hk, Checked.bind_error, served_error]

/-- A slot of which no check fails is managed in every state with the same records. -/
theorem checkManaged_same {s : State} {i identity : Nat} {k : KeySlot} (hf : s.manageFailure i identity = none)
    (hk : s.kept.slot i = some k) (u : State) (hu : u.kept = s.kept) : checkManaged i identity u = .ok k := by
  obtain ⟨k', hk', hc⟩ := checkManaged_passes ((manageFailure_same hu ..).trans hf)
  rw [hu, hk] at hk'
  rw [hc, Option.some.inj hk']

/-- A heard KEY RETIRE or KEY ERASE of a slot that cannot be managed is refused with the first check that fails (R22). -/
theorem keyEnd_unmanaged {s : State} {identity i : Byte} {c : Instr} {status : Status} (h : s.Hears identity [i])
    (hr : s.hasRight identity.toNat rightAdmin = true ∨ s.hasRight identity.toNat rightOwner = true)
    (hc : c ∈ [.keyRetire identity [i], .keyErase identity [i]]) (hf : s.manageFailure i.toNat identity.toNat = some status) :
    ∃ t, exec c s = .next t ∧ Replies s identity status [] t := by
  have unmanaged : ∀ u, u.kept = s.kept → checkManaged i.toNat identity.toNat u = .error status := fun u hu =>
    checkManaged_fails ((manageFailure_same hu ..).trans hf)
  simp only [List.mem_cons, List.not_mem_nil, or_false] at hc
  rcases hc with rfl | rfl
  · exact request_refused h _ (checkRight_manager nofun rfl rfl hr) rfl fun u hu => by
      rw [serveKeyRetire_eq, unmanaged u hu.kept, Checked.bind_error, served_error]
  · exact request_refused h _ (checkRight_manager nofun rfl rfl hr) rfl fun u hu => by
      rw [serveKeyErase_eq, unmanaged u hu.kept, Checked.bind_error, served_error]

/-- A heard later chunk that fails a check of R20 is refused with its status (log entry 59). -/
theorem blobWrite_laterRefused {s : State} {identity i : Byte} {offset : Nat} {chunk : Bytes} {status : Status} (h0 : 0 < offset)
    (ho : offset < 65536) (h : s.Hears identity (i :: (le16 offset ++ chunk)))
    (hr : s.hasRight identity.toNat rightAdmin = true ∨ s.hasRight identity.toNat rightOwner = true)
    (hf : if chunk = [] ∨ 512 < chunk.length then status = .badArgument
      else s.appendFailure i.toNat identity.toNat offset chunk = some status) :
    ∃ t, exec (.blobWrite identity (i :: (le16 offset ++ chunk))) s = .next t ∧ Replies s identity status [] t :=
  request_refused h _ (checkRight_manager nofun rfl rfl hr) rfl fun u hu => by
    have refused : laterChunk i.toNat identity.toNat offset chunk u = .error status := by
      split at hf
      · next unfit => rw [hf, laterChunk_unfit unfit]
      · next fit =>
        obtain ⟨nonempty, short⟩ := not_or.1 fit
        exact laterChunk_fails (chunkFits_ok (List.length_pos_iff.2 nonempty) (Nat.not_lt.1 short))
          ((appendFailure_same hu.kept ..).trans hf)
    rw [serveBlobWrite_later h0 ho, refused, served_error]

/-! ## Writes handed over -/

section Managed

variable {s : State} {identity i : Byte} {k : KeySlot} (hm : s.Managed i.toNat identity.toNat k)
include hm

theorem blobWrite_appends {chunk data : Bytes} (h : s.Hears identity (i :: (le16 data.length ++ chunk))) (hb : k.material = .blob data)
    (ha : k.state = .active) (h0 : 0 < data.length) (h1 : 1 ≤ chunk.length) (h2 : chunk.length ≤ 512)
    (hl : data.length + chunk.length ≤ 1024) :
    ∃ t, exec (.blobWrite identity (i :: (le16 data.length ++ chunk))) s = .next t ∧
      Hands s .blobWrite identity (i :: (le16 data.length ++ chunk)) (.slotAppend (s.kept.slotPlace i.toNat) data.length chunk)
        (.replyBlob i.toNat false) s.biu t :=
  request_hands h (checkRight_class nofun rfl rfl hm.right) rfl fun u hu => by
    rw [serveBlobWrite_later h0 (by omega), laterChunk_appends hu hm hb ha h1 h2 hl, served_ok]

theorem keyRestrict_narrows {payload bound : Bytes} {usage answers chains : Byte} {limit form : Nat} (h : s.Hears identity payload)
    (hp : readRestrict payload = some (i.toNat, usage, answers, limit, form, chains, bound)) (ha : k.state = .active)
    (hf : bindingFits form chains = true)
    (hn : k.narrowsTo usage answers (givenLimit limit) (givenBinding form chains bound s.ism) = true) :
    ∃ t, exec (.keyRestrict identity payload) s = .next t ∧
      Hands s .keyRestrict identity payload
        (.slotRestrict (s.kept.slotPlace i.toNat) usage answers (givenLimit limit) (givenBinding form chains bound s.ism))
        (.replyKeyInfo i.toNat) s.biu t :=
  request_hands h (checkRight_class nofun rfl rfl hm.right) rfl fun u hu => by
    simp only [serveKeyRestrict_eq hp, hu.managed hm, Checked.bind_ok, checkActive_ok ha, hf, hu.ism, hn, check_true, hu.handsSlot hm,
      hu.kept, Checked.pure_eq, served_ok]

theorem keyRetire_retires (h : s.Hears identity [i]) (ha : k.state = .active) :
    ∃ t, exec (.keyRetire identity [i]) s = .next t ∧
      Hands s .keyRetire identity [i] (.slotRetire (s.kept.slotPlace i.toNat)) (.reply [slotStateCode (some .retired)]) s.biu t :=
  request_hands h (checkRight_class nofun rfl rfl hm.right) rfl fun u hu => by
    rw [serveKeyRetire_eq, hu.managed hm, Checked.bind_ok, if_neg (by rw [ha]; decide), hu.handsSlot hm, hu.kept, Checked.pure_eq,
      served_ok]

theorem keyRetire_again (h : s.Hears identity [i]) (hr : k.state = .retired) :
    ∃ t, exec (.keyRetire identity [i]) s = .next t ∧ Replies s identity .ok [slotStateCode (some .retired)] t :=
  request_answered h (checkRight_class nofun rfl rfl hm.right) rfl fun u hu => by
    rw [serveKeyRetire_eq, hu.managed hm, Checked.bind_ok, if_pos hr, Checked.pure_eq, served_ok]

theorem keyErase_erases (h : s.Hears identity [i]) :
    ∃ t, exec (.keyErase identity [i]) s = .next t ∧
      Hands s .keyErase identity [i] (.slotErase (s.kept.slotPlace i.toNat)) (.reply []) s.biu t :=
  request_hands h (checkRight_class nofun rfl rfl hm.right) rfl fun u hu => by
    rw [serveKeyErase_eq, hu.managed hm, Checked.bind_ok, hu.handsSlot hm, hu.kept, Checked.pure_eq, served_ok]

end Managed

/-- The form 0 of a binding carries none (R21). -/
theorem givenBinding_none (chains : Byte) (bound : Bytes) (m : Ism) : givenBinding 0 chains bound m = none := rfl

/-- Settles O7: the records by the writes' own laws, no widening by `exec_narrower`, and each request by its service. -/
theorem managingRequestsWriteTheirSlot : Obligations.ManagingRequestsWriteTheirSlot := by
  refine ⟨fun r p k hk => ?_, fun r p hk => ?_, fun s p op payload hp hg hop hm hk => ?_,
    fun c s t i k l h hk hl => exec_narrower h hk hl, fun s identity payload usage answers chains i limit form bound h hr hread => ?_,
    fun s identity i c status h hr hc hf => keyEnd_unmanaged h hr hc hf,
    fun s identity i offset chunk status h0 ho h hr hf => blobWrite_laterRefused h0 ho h hr hf,
    fun s identity i k hm => ⟨fun chunk data h hb ha h0 h1 h2 hl => blobWrite_appends hm h hb ha h0 h1 h2 hl,
      fun payload usage answers chains limit form bound h hread ha hu hus han hans hf hb hl => ?_,
      keyRetire_retires hm, keyRetire_again hm, keyErase_erases hm⟩⟩
  · obtain ⟨retired, retiredOthers, retiredFrame⟩ := Records.slotRetire_retires hk
    obtain ⟨erased, erasedOthers, erasedFrame⟩ := Records.slotErase_empties hk
    refine ⟨retired.trans ?_, retiredFrame, erased, erasedFrame, fun j hj => ⟨retiredOthers j hj, erasedOthers j hj⟩⟩
    cases hmat : k.material <;> simp [KeySlot.retired, KeyMaterial.retired, hmat]
  · exact ⟨Records.apply_error (Records.recheck_slotRetire_empty hk), Records.slotErase_empty hk⟩
  · obtain ⟨k, hk⟩ := Option.ne_none_iff_exists'.1 hk
    exact managedWrite_completes hp hg hop hm hk
  · refine ⟨fun status hf => keyRestrict_unmanaged h hr hread hf, fun k hf hk => ⟨fun retired => ?_, fun ha hbad => ?_⟩⟩
    · exact keyRestrict_retired h hr hread (checkManaged_same hf hk) retired
    · exact request_refused h _ (checkRight_manager nofun rfl rfl hr) rfl fun u hu =>
        serveKeyRestrict_bad hread (checkManaged_same hf hk u hu.kept) ha hbad
  · refine keyRestrict_narrows hm h hread ha hf (KeySlot.narrowsTo_true hu hus han hans ?_ fun held l hh hg => givenLimit_le (hl held hh) hg)
    exact hb.imp_left fun h0 => by rw [h0, givenBinding_none]

end Sys2Proof.Machine
end

section
/-! SUPPORT. Proofs for chapter 1, part 7: the requests that use a slot's key (R14, R16, R115, R118). -/

namespace Sys2Proof.Machine

/-! ## The binding of a slot (R8) -/

/-- A binding is compared with the digest of the chains of its set, in their order (R8). -/
theorem Ism.chainsDigest_eq (m : Ism) (set : Byte) :
    m.chainsDigest set = sha256 (((List.range 8).filter (inSet set)).flatMap m.chain) := rfl

theorem Ism.bindingMatches_iff (m : Ism) (binding : Option Binding) :
    m.bindingMatches binding = true ↔
      ∀ b, binding = some b → b.bound = sha256 (((List.range 8).filter (inSet b.chains)).flatMap m.chain) := by
  cases binding with
  | none => simp [Ism.bindingMatches]
  | some b =>
    simp only [Ism.bindingMatches, Ism.chainsDigest_eq, beq_iff_eq, Option.some.injEq]
    exact ⟨fun h _ e => e ▸ h.symm, fun h => (h b rfl).symm⟩

/-! ## The payloads of the uses -/

theorem readSign_carried (i : Byte) (matter : Bytes) : readSign (i :: 0 :: matter) = some (i.toNat, false, matter) := by
  simp [readSign]

theorem readSign_data (i : Byte) (matter : Bytes) : readSign (i :: 1 :: matter) = some (i.toNat, true, matter) := by
  simp [readSign]

theorem readStatement_cons (i chains n : Byte) (nonce : Bytes) :
    readStatement (i :: chains :: n :: nonce) = some (i.toNat, chains, n.toNat, nonce) := by
  simp [readStatement, takeByte]

/-! ## The services -/

theorem serveKeySign_eq {identity i : Nat} {payload matter : Bytes} {data : Bool} (hp : readSign payload = some (i, data, matter))
    (u : State) :
    serveKeySign identity payload u = served (checkUse i identity .signingPair useSign u >>= fun _ =>
      check (if data then dataFits matter else matter.length == 32) .badArgument >>= fun _ =>
      pure (if data then beginDigest none matter (.signDigest (u.kept.slotPlace i)) u
        else placeSign (u.kept.slotPlace i) matter (.signEngine (u.kept.slotPlace i)) u)) u := by
  simp only [serveKeySign, hp, layout_some, Checked.bind_ok]

theorem serveKeyDerive_eq (identity : Nat) (i : Byte) (context : Bytes) (u : State) :
    serveKeyDerive identity (i :: context) u = served (checkUse i.toNat identity .secret useDerive u >>= fun k =>
      check (dataFits context) .badArgument >>= fun _ =>
      pure (beginDigest (some k.material.secretBytes) context (.deriveDigest (u.kept.slotPlace i.toNat)) u)) u := by
  simp only [serveKeyDerive, takeNumber_one, layout_some, Checked.bind_ok]

theorem serveMakeStatement_eq (identity : Nat) (i chains n : Byte) (nonce : Bytes) (u : State) :
    serveMakeStatement identity (i :: chains :: n :: nonce) u =
      served (checkUse i.toNat identity .signingPair useStatement u >>= fun _ =>
        check (decide (8 ≤ n.toNat) && decide (n.toNat ≤ 32)) .badArgument >>= fun _ =>
        check (nonce.length == n.toNat) .badArgument >>= fun _ =>
        pure (beginDigest none (u.statementBody chains nonce)
          (.statementDigest (u.kept.slotPlace i.toNat) (u.statementBody chains nonce)) u)) u := by
  simp only [serveMakeStatement, readStatement_cons, layout_some, Checked.bind_ok]

/-- A request that uses a slot is refused with the first check of R10 that fails. -/
theorem use_refused {u : State} {i identity usage : Nat} {kind : KeyKind} {status : Status}
    (h : u.slotFailure i identity ⟨[kind], true, some usage, true, true⟩ = some status) (f : KeySlot → Checked State) :
    served (checkUse i identity kind usage u >>= f) u = refuse status u := by
  rw [checkUse_fails h, Checked.bind_error, served_error]

/-- A request whose own field is ill-formed is refused where the slot passes R10. -/
theorem use_unfit {u : State} {i identity usage : Nat} {kind : KeyKind} {f : KeySlot → Checked State}
    (h : u.slotFailure i identity ⟨[kind], true, some usage, true, true⟩ = none) (hf : ∀ k, f k = .error .badArgument) :
    served (checkUse i identity kind usage u >>= f) u = refuse .badArgument u := by
  obtain ⟨k, hk⟩ := checkUse_passes h
  rw [checkUse_ok rfl rfl rfl hk, Checked.bind_ok, hf, served_error]

theorem Serving.usable {s u : State} {code : Req} {identity : Byte} {payload : Bytes} (h : Serving s code identity payload u)
    {i who usage : Nat} {kind : KeyKind} {k : KeySlot} (hu : s.Usable i who kind usage k) : checkUse i who kind usage u = .ok k :=
  checkUse_ok h.kept h.ism h.keys hu

theorem dataFits_ok {bytes : Bytes} (h1 : 1 ≤ bytes.length) (h2 : bytes.length ≤ 1000) : dataFits bytes = true := by
  simp only [dataFits, h1, h2, decide_true, Bool.and_self]

theorem dataFits_fails {bytes : Bytes} (h : bytes = [] ∨ 1000 < bytes.length) : dataFits bytes = false := by
  rcases h with rfl | h
  · rfl
  · simp [dataFits, Nat.not_le.2 h]

/-! ## Refusals -/

/-- A heard use of a slot that fails a check of R10 is refused with its status. -/
theorem keyUse_refused {s : State} {identity i : Byte} {rest : Bytes} {c : Instr} {row : SlotRow} {status : Status}
    (h : s.Hears identity (i :: rest))
    (hc : (c = .keySign identity (i :: rest) ∧ row = signRow ∧ (rest.head? = some 0 ∨ rest.head? = some 1)) ∨
      (c = .keyDerive identity (i :: rest) ∧ row = deriveRow) ∨
      (c = .makeStatement identity (i :: rest) ∧ row = statementRow ∧ 2 ≤ rest.length))
    (hf : s.slotFailure i.toNat identity.toNat row = some status) :
    ∃ t, exec c s = .next t ∧ Replies s identity status [] t := by
  rcases hc with ⟨rfl, rfl, hform⟩ | ⟨rfl, rfl⟩ | ⟨rfl, rfl, hlen⟩
  · obtain ⟨data, matter, hread⟩ : ∃ data matter, readSign (i :: rest) = some (i.toNat, data, matter) := by
      rcases hform with hform | hform <;> obtain ⟨matter, rfl⟩ := List.head?_eq_some_iff.1 hform
      · exact ⟨_, _, readSign_carried i matter⟩
      · exact ⟨_, _, readSign_data i matter⟩
    exact request_refused h _ (checkRight_free nofun rfl rfl) rfl fun u hu => by
      rw [serveKeySign_eq hread, use_refused ((hu.slotFailure ..).trans hf)]
  · exact request_refused h _ (checkRight_free nofun rfl rfl) rfl fun u hu => by
      rw [serveKeyDerive_eq, use_refused ((hu.slotFailure ..).trans hf)]
  · match rest, hlen with
    | chains :: n :: nonce, _ =>
      exact request_refused h _ (checkRight_free nofun rfl rfl) rfl fun u hu => by
        rw [serveMakeStatement_eq, use_refused ((hu.slotFailure ..).trans hf)]

/-- A heard KEY SIGN of a slot that passes R10 refuses a matter that its form does not allow (R14). -/
theorem keySign_unfit {s : State} {identity i : Byte} {rest matter : Bytes} (h : s.Hears identity (i :: rest))
    (hf : s.slotFailure i.toNat identity.toNat signRow = none)
    (hm : (rest = 0 :: matter ∧ matter.length ≠ 32) ∨ (rest = 1 :: matter ∧ (matter = [] ∨ 1000 < matter.length))) :
    ∃ t, exec (.keySign identity (i :: rest)) s = .next t ∧ Replies s identity .badArgument [] t := by
  obtain ⟨data, hread, unfit⟩ : ∃ data, readSign (i :: rest) = some (i.toNat, data, matter) ∧
      (if data then dataFits matter else matter.length == 32) = false := by
    rcases hm with ⟨rfl, hl⟩ | ⟨rfl, hl⟩
    · exact ⟨_, readSign_carried i matter, by simpa using hl⟩
    · exact ⟨_, readSign_data i matter, dataFits_fails hl⟩
  exact request_refused h _ (checkRight_free nofun rfl rfl) rfl fun u hu => by
    rw [serveKeySign_eq hread, use_unfit ((hu.slotFailure ..).trans hf) fun k => by rw [unfit, check_false, Checked.bind_error]]

/-- A heard KEY DERIVE of a slot that passes R10 refuses a context outside 1..1000 bytes (R16). -/
theorem keyDerive_unfit {s : State} {identity i : Byte} {context : Bytes} (h : s.Hears identity (i :: context))
    (hf : s.slotFailure i.toNat identity.toNat deriveRow = none) (hl : context = [] ∨ 1000 < context.length) :
    ∃ t, exec (.keyDerive identity (i :: context)) s = .next t ∧ Replies s identity .badArgument [] t :=
  request_refused h _ (checkRight_free nofun rfl rfl) rfl fun u hu => by
    rw [serveKeyDerive_eq, use_unfit ((hu.slotFailure ..).trans hf) fun k => by
      rw [dataFits_fails hl, check_false, Checked.bind_error]]

/-- A heard MAKE STATEMENT of a slot that passes R10 refuses a nonce outside 8..32 bytes (R114). -/
theorem makeStatement_unfit {s : State} {identity i chains n : Byte} {nonce : Bytes}
    (h : s.Hears identity (i :: chains :: n :: nonce)) (hf : s.slotFailure i.toNat identity.toNat statementRow = none)
    (hn : n.toNat < 8 ∨ 32 < n.toNat ∨ nonce.length ≠ n.toNat) :
    ∃ t, exec (.makeStatement identity (i :: chains :: n :: nonce)) s = .next t ∧ Replies s identity .badArgument [] t :=
  request_refused h _ (checkRight_free nofun rfl rfl) rfl fun u hu => by
    rw [serveMakeStatement_eq, use_unfit ((hu.slotFailure ..).trans hf) fun k => ?_]
    by_cases range : 8 ≤ n.toNat ∧ n.toNat ≤ 32
    · have length : (nonce.length == n.toNat) = false := by simp; omega
      simp [range, length]
    · simp [show (decide (8 ≤ n.toNat) && decide (n.toNat ≤ 32)) = false by simpa using range]

/-! ## The work begun -/

section Used

variable {s : State} {identity i : Byte} {k : KeySlot}

/-- KEY SIGN of 32 carried bytes places a SIGN operation with the slot's key (R14). -/
theorem keySign_places {key pub digest : Bytes} (hu : s.Usable i.toNat identity.toNat .signingPair useSign k)
    (hk : k.material = .pair (some key) pub) (hl : digest.length = 32) (h : s.Hears identity (i :: 0 :: digest)) :
    ∃ t, exec (.keySign identity (i :: 0 :: digest)) s = .next t ∧ RequestFrame s t ∧ t.gate = s.admittedGate ∧
      t.ism = s.ism ∧ t.store = s.store ∧ t.biu = s.biu ∧ t.Serves .keySign identity (i :: 0 :: digest) ∧
      t.engine = s.engine ++ [.sign i.toNat key digest] ∧ t.link.service = .signEngine (s.kept.slotPlace i.toNat) := by
  obtain ⟨u, serving, he⟩ := request_serves (serve := serveKeySign) (code := .keySign) h (checkRight_free nofun rfl rfl) rfl
  have slot : u.kept.slotAt (u.kept.slotPlace i.toNat) = some k := by rw [Records.slotAt_slotPlace, serving.kept, hu.slot]
  have placed : serveKeySign identity.toNat (i :: 0 :: digest) u = { u with
      engine := u.engine ++ [.sign i.toNat key digest]
      link := { u.link with service := .signEngine (u.kept.slotPlace i.toNat) } } := by
    simp only [serveKeySign_eq (readSign_carried i digest), serving.usable hu, Checked.bind_ok, Bool.false_eq_true, if_false, hl,
      beq_self_eq_true, check_true, Checked.pure_eq, served_ok, placeSign_active slot hu.active, hk, KeyMaterial.privateBytes]
    rfl
  refine ⟨_, he, ?_⟩
  rw [placed]
  exact ⟨{ serving.toQuiet.toRequestFrame with }, serving.gate, serving.ism, serving.store, serving.biu,
    ⟨serving.serves.serving, serving.serves.request⟩, by rw [← serving.engine]; rfl, by rw [← serving.kept]; rfl⟩

/-- KEY SIGN of data digests the data first (R14). -/
theorem keySign_digests {data : Bytes} (hu : s.Usable i.toNat identity.toNat .signingPair useSign k) (h1 : 1 ≤ data.length)
    (h2 : data.length ≤ 1000) (h : s.Hears identity (i :: 1 :: data)) :
    ∃ t, exec (.keySign identity (i :: 1 :: data)) s = .next t ∧
      Digests s .keySign identity (i :: 1 :: data) none data (.signDigest (s.kept.slotPlace i.toNat)) s.biu t :=
  request_digests h (checkRight_free nofun rfl rfl) rfl fun u serving => by
    simp only [serveKeySign_eq (readSign_data i data), serving.usable hu, Checked.bind_ok, if_true, dataFits_ok h1 h2, check_true,
      Checked.pure_eq, served_ok, serving.kept]

/-- KEY DERIVE digests its context under the slot's secret (R16). -/
theorem keyDerive_digests {secret context : Bytes} (hu : s.Usable i.toNat identity.toNat .secret useDerive k)
    (hk : k.material = .secret (some secret)) (h1 : 1 ≤ context.length) (h2 : context.length ≤ 1000)
    (h : s.Hears identity (i :: context)) :
    ∃ t, exec (.keyDerive identity (i :: context)) s = .next t ∧
      Digests s .keyDerive identity (i :: context) (some secret) context (.deriveDigest (s.kept.slotPlace i.toNat)) s.biu t :=
  request_digests h (checkRight_free nofun rfl rfl) rfl fun u serving => by
    simp only [serveKeyDerive_eq, serving.usable hu, Checked.bind_ok, dataFits_ok h1 h2, check_true, Checked.pure_eq, served_ok, hk,
      KeyMaterial.secretBytes, serving.kept]

/-- MAKE STATEMENT takes the statement body in its event and digests it (R115, R118). -/
theorem makeStatement_digests {chains n : Byte} {nonce : Bytes} (hu : s.Usable i.toNat identity.toNat .signingPair useStatement k)
    (h1 : 8 ≤ nonce.length) (h2 : nonce.length ≤ 32) (hn : n.toNat = nonce.length) (h : s.Hears identity (i :: chains :: n :: nonce)) :
    ∃ t, exec (.makeStatement identity (i :: chains :: n :: nonce)) s = .next t ∧
      Digests s .makeStatement identity (i :: chains :: n :: nonce) none (t.statementBody chains nonce)
        (.statementDigest (s.kept.slotPlace i.toNat) (t.statementBody chains nonce)) s.biu t := by
  obtain ⟨u, serving, he⟩ := request_serves (serve := serveMakeStatement) (code := .makeStatement) h (checkRight_free nofun rfl rfl) rfl
  have begun : serveMakeStatement identity.toNat (i :: chains :: n :: nonce) u =
      beginDigest none (u.statementBody chains nonce) (.statementDigest (s.kept.slotPlace i.toNat) (u.statementBody chains nonce)) u := by
    simp only [serveMakeStatement_eq, serving.usable hu, Checked.bind_ok, hn, h1, h2, decide_true, Bool.and_self, beq_self_eq_true,
      check_true, Checked.pure_eq, served_ok, serving.kept]
  refine ⟨_, he, ?_⟩
  rw [begun]
  exact serving.digests _ _ _ _

end Used

/-- Settles O8: the refusals by the first failure of R10 and the fields of each request, and each use by the work its service begins. -/
theorem keyUsesBeginTheirWork : Obligations.KeyUsesBeginTheirWork := by
  refine ⟨Ism.bindingMatches_iff, fun s identity i rest c row status h hc hf => keyUse_refused h hc hf,
    fun s identity i rest c h hc => ?_,
    fun s identity i k => ⟨fun key pub digest hu hk hl h => keySign_places hu hk hl h, fun data hu h1 h2 h => keySign_digests hu h1 h2 h,
      fun secret context hu hk h1 h2 h => keyDerive_digests hu hk h1 h2 h,
      fun chains n nonce hu h1 h2 hn h => makeStatement_digests hu h1 h2 hn h⟩⟩
  rcases hc with ⟨matter, rfl, hf, hm⟩ | ⟨rfl, hf, hl⟩ | ⟨chains, n, nonce, rfl, hf, rfl, hn⟩
  · exact keySign_unfit h hf hm
  · exact keyDerive_unfit h hf hl
  · exact makeStatement_unfit h hf hn

end Sys2Proof.Machine
end

section
/-! SUPPORT. Proofs for chapter 1, part 8: the uses that go on and are counted before their reply (R6, R14, R15, R16, R23, R119). -/

namespace Sys2Proof.Machine

/-! ## A use goes on -/

/-- The mark after a block of the LINK context names it (R45). -/
theorem goesOn_mark {s : State} (h : s.digest.mark = .link) : s.goesOn.digest.mark = .link := by
  simpa [State.goesOn, State.settle] using h

theorem blockTaken_mark (s : State) (a : Absorption) : (s.blockTaken a).digest.mark = a.context :=
  DigestEngine.absorbed_mark a s.digest

/-- A digest that a KEY SIGN waits for places its SIGN operation (R14). -/
theorem linkDigestDone_sign {s : State} {p : Place} {k : KeySlot} (h : s.link.service = .signDigest p) (hs : s.kept.slotAt p = some k)
    (ha : k.state = .active) (digest : Bytes) :
    linkDigestDone digest s =
      { s with engine := s.engine ++ [.sign p.index k.material.privateBytes digest], link := { s.link with service := .signEngine p } } := by
  rw [linkDigestDone, h]
  exact placeSign_active hs ha digest _

/-- A digest that a KEY DERIVE waits for is counted as a use (R16). -/
theorem linkDigestDone_derive {s : State} {p : Place} {k : KeySlot} (h : s.link.service = .deriveDigest p) (hs : s.kept.slotAt p = some k)
    (ha : k.state = .active) (ho : k.slotClass = .owner → s.resetBegun = false) (digest : Bytes) :
    linkDigestDone digest s = s.handOver (.slotCount p) (.replyCounted p.index digest true) := by
  rw [linkDigestDone, h]
  exact countUse_open hs ha ho digest true

/-- A SIGN operation that completes leaves the list and gives its request a signature of this drawing (R23). -/
theorem exec_signCompletes {s : State} {j : Nat} {key digest : Bytes} {rest : List EngineOp} (hp : s.powered = true)
    (he : s.engine = .sign j key digest :: rest) :
    exec .seOperationComplete s = .next (signatureDone (Config.signature s.draws key digest)
      { s with engine := rest, draws := s.draws + 1 }).settle := by
  simp [exec, execSeOperationComplete, event, hp, he, engineDone]

theorem signatureDone_sign {s : State} {p : Place} {k : KeySlot} (h : s.link.service = .signEngine p) (hs : s.kept.slotAt p = some k)
    (ha : k.state = .active) (ho : k.slotClass = .owner → s.resetBegun = false) (signature : Bytes) :
    signatureDone signature s = s.handOver (.slotCount p) (.replyCounted p.index signature true) := by
  rw [signatureDone, h]
  exact countUse_open hs ha ho signature true

theorem signatureDone_statement {s : State} {p : Place} {k : KeySlot} {body : Bytes} (h : s.link.service = .statementEngine p body)
    (hs : s.kept.slotAt p = some k) (ha : k.state = .active) (ho : k.slotClass = .owner → s.resetBegun = false) (signature : Bytes) :
    signatureDone signature s = s.handOver (.slotCount p) (.replyCounted p.index (body ++ signature) false) := by
  rw [signatureDone, h]
  exact countUse_open hs ha ho (body ++ signature) false

/-! ## The end of a count -/

/-- The payload of a counted use's reply, of the slot as it then stands. -/
theorem countedPayload_slot {r : Records} {i : Nat} {k : KeySlot} (h : r.slot i = some k) (result : Bytes) (report : Bool) :
    countedPayload i result report r =
      if report = true then result ++ le16 k.useCount ++ [slotStateCode (some k.state)] else result := by
  simp only [countedPayload, h]

/-- A count that completes of an ACTIVE slot is made and answered (R6, R15, R119). -/
theorem count_completes {s : State} {p : Place} {k : KeySlot} {result : Bytes} {report : Bool} (hp : s.powered = true)
    (hg : s.gate.selection = .idle) (hm : s.store.making = some ⟨.slotCount p, .replyCounted p.index result report⟩)
    (hs : s.kept.slotAt p = some k) (ha : k.state = .active) :
    ∃ t, exec .storeWriteComplete s = .next t ∧ t.kept = s.kept.apply (.slotCount p) ∧ t.store = { s.store with making := none } ∧
      t.Answers s.asker .ok
        (if report = true then result ++ le16 k.counted.useCount ++ [slotStateCode (some k.counted.state)] else result) := by
  have made : s.kept.recheck (.slotCount p) = .ok () := Records.recheckSlot_count hs ha
  obtain ⟨counted, _⟩ := Records.slotCount_counts hs ha
  have payload := countedPayload_slot counted result report
  rw [Records.apply_ok made] at payload ⊢
  rw [← payload]
  exact ⟨_, complete_answers hp hm made (u := pruneMarks (s.withWritten (.slotCount p))) rfl hg rfl, rfl, rfl, answer_answers _ _ _⟩

/-- A count that fails leaves the slot and discards the result (R122). -/
theorem count_fails {s : State} {p : Place} {result : Bytes} {report : Bool} (hp : s.powered = true)
    (hg : s.gate.selection = .idle) (hm : s.store.making = some ⟨.slotCount p, .replyCounted p.index result report⟩) :
    ∃ t, exec .storeWriteFailed s = .next t ∧ t.kept = s.kept ∧ t.keys = s.keys ∧ t.Answers s.asker .storeFault [] ∧
      t.link.flags = s.link.flags ||| Flag.storeFault.set := by
  have fails : failItem ⟨.slotCount p, .replyCounted p.index result report⟩ s =
      refuse .storeFault (State.raise .storeFault { s with store := { s.store with making := none } }) := by
    unfold failItem
    exact interruptStep_idle hg
  refine ⟨_, exec_writeFails hp hm, ?_⟩
  rw [fails]
  exact ⟨rfl, rfl, answer_answers _ _ _, rfl⟩

/-- A signature is of 64 bytes (R23). -/
theorem signature_length (draw : Nat) (key digest : Bytes) : (Config.signature draw key digest).length = 64 := by
  simp [Config.signature]

/-- Settles O28: the digest and the operation that complete, by what their services do, and the count by its completion. -/
theorem keyUsesAreCountedBeforeTheReply : Obligations.KeyUsesAreCountedBeforeTheReply := by
  refine ⟨fun s p k hp hd hf hs ha ho => ?_, fun s p j key digest rest k hp he hs ha ho => ⟨fun hv => ?_, fun body hv => ?_⟩,
    fun s p result report hp hg hm => ⟨fun k hs ha => ?_, fun status hc => ?_, count_fails hp hg hm⟩⟩
  · have finishes := exec_linkFinishes ⟨hp, hd, hf⟩
    have mark := blockTaken_mark s ⟨.link, false⟩
    refine ⟨fun hv => ⟨_, finishes, ?_⟩, fun hv => ⟨_, finishes, ?_⟩⟩
    · rw [linkDigestDone_sign (by exact hv) (by exact hs) ha]
      exact ⟨rfl, rfl, goesOn_mark mark, rfl, rfl, rfl, rfl, rfl, rfl, rfl⟩
    · rw [linkDigestDone_derive (by exact hv) (by exact hs) ha (by exact ho)]
      exact ⟨rfl, rfl, goesOn_mark mark, rfl, rfl, rfl, rfl, rfl, rfl, rfl⟩
  · refine ⟨_, exec_signCompletes hp he, ?_⟩
    rw [signatureDone_sign (by exact hv) (by exact hs) ha (by exact ho)]
    exact ⟨rfl, rfl, signature_length _ _ _, rfl, rfl, rfl, rfl, rfl, rfl, rfl, rfl, rfl⟩
  · refine ⟨_, exec_signCompletes hp he, ?_⟩
    rw [signatureDone_statement (by exact hv) (by exact hs) ha (by exact ho)]
    exact ⟨rfl, rfl, rfl, rfl, rfl, rfl, rfl, rfl, rfl, rfl, rfl⟩
  · obtain ⟨changed, others, _⟩ := Records.slotCount_counts hs ha
    obtain ⟨t, completes, kept, store, answers⟩ := count_completes hp hg hm hs ha
    rw [← kept] at changed others
    exact ⟨t, k.counted, completes, changed, k.counted_useCount, KeySlot.counted_state ha, others, store, answers⟩
  · have refused : s.kept.recheck (.slotCount p) = .error status := by
      rcases hc with ⟨hs, rfl⟩ | ⟨k, hs, hr, rfl⟩
      · exact Records.recheck_slotCount_empty hs
      · exact Records.recheck_slotCount_retired hs hr
    obtain ⟨t, ht, _, kept, replies⟩ := write_refuses hp hg hm refused fun _ => rfl
    exact ⟨t, ht, kept, replies⟩

end Sys2Proof.Machine
end

section
/-! SUPPORT. Proofs for chapter 1, part 9: key material that has been made (R17, R18, R144, R185). -/

namespace Sys2Proof.Machine

/-- New random material is of 32 bytes (R18). -/
theorem randomBytes_length (draw : Nat) : (Config.randomBytes draw).length = 32 := by
  simp [Config.randomBytes]

theorem newMaterial_pair {code : Nat} (h : KeyKind.ofCode code = some .signingPair) (random : Bytes) :
    newMaterial code random = .pair (some random) (Config.publicKeyOf random) := by
  simp [newMaterial, h]

theorem newMaterial_secret {code : Nat} (h : KeyKind.ofCode code = some .secret) (random : Bytes) :
    newMaterial code random = .secret (some random) := by
  simp [newMaterial, h]

theorem generatedPayload_pair (p : Policy) (provision : Bool) (key : Option Bytes) (pub : Bytes) :
    generatedPayload p provision (.pair key pub) = [1] ++ (if provision = true then [] else labelBytes p.label) ++ pub := rfl

theorem generatedPayload_secret (p : Policy) (provision : Bool) (key : Option Bytes) :
    generatedPayload p provision (.secret key) = [1] ++ (if provision = true then [] else labelBytes p.label) := by
  simp [generatedPayload, KeyMaterial.publicBytes, KeyMaterial.publicKey, slotStateCode]

/-- The state in which a drawing has been taken and its request's generation has ended (R18). -/
def State.drawn (s : State) : State := { s with draws := s.draws + 1, link := { s.link with service := .none } }

/-- Key material that has been made goes to its creating write (R17, R18). -/
theorem exec_materialGenerated {s : State} {i : Nat} {p : Policy} {c : SlotClass} {provision : Bool} (hp : s.powered = true)
    (hv : s.link.service = .generating i p provision) (hc : SlotClass.ofCode p.classCode = some c) :
    exec .keyMaterialGenerated s =
      .next (createSlot i (p.newSlot c (newMaterial p.kindCode (Config.randomBytes s.draws)) s.ism)
        (.reply (generatedPayload p provision (newMaterial p.kindCode (Config.randomBytes s.draws)))) s.drawn).settle := by
  simp [exec, execKeyMaterialGenerated, event, hp, State.generating, materialGenerated, hv, hc, State.drawn]

/-- Where its creating write is not held back or refused, material that has been made is handed to the store (R18). -/
theorem exec_materialHanded {s : State} {i : Nat} {p : Policy} {c : SlotClass} {provision : Bool} (hp : s.powered = true)
    (hv : s.link.service = .generating i p provision) (hc : SlotClass.ofCode p.classCode = some c)
    (ho : c = .owner → s.kept.vault.claimed = true ∧ s.resetBegun = false) :
    exec .keyMaterialGenerated s =
      .next (s.drawn.handOver (.slotPut i (p.newSlot c (newMaterial p.kindCode (Config.randomBytes s.draws)) s.ism))
        (.reply (generatedPayload p provision (newMaterial p.kindCode (Config.randomBytes s.draws))))).settle := by
  rw [exec_materialGenerated hp hv hc, createSlot_open (t := s.drawn) ho]

/-- A creating write of class OWNER that meets an owner reset is held back (R144). -/
theorem createSlot_held {u : State} {k : KeySlot} (ho : k.slotClass = .owner) (hr : u.resetBegun = true) (i : Nat) (after : After) :
    createSlot i k after u = { u with keys := { u.keys with held := some ⟨.slotPut i k, after⟩ } } :=
  if_pos ⟨ho, hr⟩

/-- Settles O31: each case of the creating write, of the material that the kind gives. -/
theorem generatedMaterialIsHandedToTheStore : Obligations.GeneratedMaterialIsHandedToTheStore := by
  refine ⟨fun s i p c provision random hp hv hc ho hrandom => ?_, fun s i p provision hp hv hc => ⟨fun hu hr => ?_, fun hr => ?_⟩⟩
  · subst hrandom
    have handed := exec_materialHanded hp hv hc ho
    refine ⟨randomBytes_length _, fun hk => ⟨_, handed, ?_⟩, fun hk => ⟨_, handed, ?_⟩⟩
    · rw [newMaterial_pair hk, generatedPayload_pair]
      exact ⟨rfl, rfl, rfl, rfl, rfl, rfl, rfl, rfl, rfl, rfl⟩
    · rw [newMaterial_secret hk, generatedPayload_secret]
      exact ⟨rfl, rfl, rfl, rfl, rfl, rfl, rfl, rfl, rfl, rfl⟩
  · refine ⟨_, exec_materialGenerated hp hv hc, ?_⟩
    rw [createSlot_eq (u := s.drawn) hr, if_pos ⟨rfl, hu⟩]
    exact ⟨answer_answers _ _ _, rfl, rfl, rfl⟩
  · refine ⟨_, exec_materialGenerated hp hv hc, ?_⟩
    rw [createSlot_held rfl (show s.drawn.resetBegun = true from hr)]
    exact ⟨rfl, rfl, rfl, rfl⟩

end Sys2Proof.Machine
end

section
/-! SUPPORT. Proofs for chapter 1, part 10: the completions of writes to key slots (R17, R19, R20, R21, R182, R185). -/

namespace Sys2Proof.Machine

/-! ## Whether a write of a slot is made (log entry 46) -/

theorem Records.recheck_slotPut_occupied {r : Records} {i : Nat} {k : KeySlot} (h : r.slot i ≠ none) :
    r.recheck (.slotPut i k) = .error .slotOccupied := by
  have occupied : (r.slot i).isNone = false := Option.isNone_eq_false_iff.2 (Option.isSome_iff_ne_none.2 h)
  simp only [Records.recheck_slotPut, Records.recheckSlot, occupied, check_false, Checked.bind_error]

theorem Records.recheck_slotPut_taken {r : Records} {i : Nat} {k : KeySlot} (h : r.slot i = none)
    (hl : r.slotLabelFree k.label = false) : r.recheck (.slotPut i k) = .error .labelTaken := by
  simp only [Records.recheck_slotPut, Records.recheckSlot, h, Option.isNone_none, hl, check_true, check_false, Checked.bind_ok,
    Checked.bind_error]

theorem Records.recheck_slotPut_unclaimed {r : Records} {i : Nat} {k : KeySlot} (h : r.slot i = none)
    (hl : r.slotLabelFree k.label = true) (ho : k.slotClass = .owner ∧ r.vault.claimed = false) :
    r.recheck (.slotPut i k) = .error .wrongState := by
  have unclaimed : r.mayHold (k.slotClass == .owner) = false := by simp [Records.mayHold, ho]
  simp only [Records.recheck_slotPut, Records.recheckSlot, h, Option.isNone_none, hl, unclaimed, check_true, check_false, Checked.bind_ok]

/-- A created slot's write that is made (R17). -/
theorem Records.apply_slotPut {r : Records} {i : Nat} {k : KeySlot} (h : r.slot i = none) (hl : r.slotLabelFree k.label = true)
    (ho : k.slotClass = .owner → r.vault.claimed = true) : r.apply (.slotPut i k) = r.withSlot i (some k) :=
  Records.apply_ok (Records.recheckSlot_put h hl ho)

theorem Records.recheck_slotAppend_empty {r : Records} {p : Place} (h : r.slotAt p = none) (offset : Nat) (chunk : Bytes) :
    r.recheck (.slotAppend p offset chunk) = .error .slotEmpty := by
  simp only [Records.recheck_slotAppend, Records.recheckSlot, h, present_none, Checked.bind_error]

/-- A chunk for an ACTIVE blob is checked for room alone (R20). -/
theorem Records.recheck_slotAppend_blob {r : Records} {p : Place} {k : KeySlot} {data : Bytes} (h : r.slotAt p = some k)
    (ha : k.state = .active) (hb : k.material = .blob data) (offset : Nat) (chunk : Bytes) :
    r.recheck (.slotAppend p offset chunk) = checkRoom offset chunk k := by
  simp only [Records.recheck_slotAppend, Records.recheckSlot, h, present_some, Checked.bind_ok, checkKind, hb, KeyMaterial.kind,
    show [KeyKind.blob].contains .blob = true from rfl, check_true, checkActive_ok ha]

theorem checkRoom_unfit {offset : Nat} {chunk : Bytes} {k : KeySlot}
    (h : ¬ (offset = k.material.blobLength ∧ offset + chunk.length ≤ 1024)) : checkRoom offset chunk k = .error .badArgument := by
  refine checkRoom_fails ?_
  have unfit : (offset == k.material.blobLength && decide (offset + chunk.length ≤ 1024)) = false := by
    rw [Bool.eq_false_iff]
    simpa using h
  rw [unfit]
  rfl

theorem Records.recheck_slotRestrict_ok {r : Records} {p : Place} {k : KeySlot} {usage answers : Byte} {limit : Option Nat}
    {binding : Option Binding} (h : r.slotAt p = some k) (ha : k.state = .active)
    (hn : k.narrowsTo usage answers limit binding = true) : r.recheck (.slotRestrict p usage answers limit binding) = .ok () := by
  simp only [Records.recheck_slotRestrict, Records.recheckSlot, h, present_some, Checked.bind_ok, checkActive_ok ha, hn, check_true]

/-! ## A write of a slot leaves the rest -/

/-- A write that is made or leaves the records has what either has. -/
theorem Records.apply_induction {P : Records → Prop} {r : Records} {op : StoreOp} (made : P (r.written op)) (left : P r) :
    P (r.apply op) := by
  unfold Records.apply
  split
  · exact made
  · exact left

/-- The records beside the slots and their lives, and the other slots, stand. -/
def Records.ChangesSlot (i : Nat) (r q : Records) : Prop :=
  (∀ j, j ≠ i → q.slot j = r.slot j) ∧ q = { r with slots := q.slots, slotLives := q.slotLives }

theorem Records.updateSlot_changesSlot (r : Records) (p : Place) (f : KeySlot → KeySlot) :
    r.ChangesSlot p.index (r.updateSlot p f) := by
  refine ⟨fun j hj => r.updateSlot_other p f hj, ?_⟩
  unfold Records.updateSlot
  split <;> rfl

theorem Records.emptySlot_changesSlot (r : Records) (p : Place) : r.ChangesSlot p.index (r.emptySlot p) :=
  ⟨fun _ hj => r.emptySlot_other p hj, r.emptySlot_frame p⟩

/-- A write of a slot changes no other slot and no other record. -/
theorem Records.apply_changesSlot {op : StoreOp} {p : Place} (h : op.slot = some p) (r : Records) : r.ChangesSlot p.index (r.apply op) := by
  refine Records.apply_induction ?_ ⟨fun _ _ => rfl, rfl⟩
  cases op <;> cases h
  case slotErase => exact r.emptySlot_changesSlot p
  all_goals exact r.updateSlot_changesSlot p _

/-- A created slot leaves every other slot and record. -/
theorem Records.withSlot_frame (r : Records) (i : Nat) (slot : Option KeySlot) :
    r.withSlot i slot = { r with slots := (r.withSlot i slot).slots } := rfl

/-- A created slot leaves the slots of other places. -/
theorem Records.withSlot_slotAt {r : Records} {i : Nat} {p : Place} (h : p.index ≠ i) (slot : Option KeySlot) :
    (r.withSlot i slot).slotAt p = r.slotAt p := by
  unfold Records.slotAt
  rw [Records.withSlot_other r h]
  rfl

/-! ## A created slot's completion (R17, R20, R185) -/

theorem clearMark_suspended (s : State) (i : Nat) : (clearMark i s).suspended i = false := by
  by_cases hi : i < 24 <;> simp [State.suspended, clearMark, hi]

/-- A created blob's payload: its length, or for PROVISION SLOT its state (R20, R185). -/
theorem blobPayload_slot {r : Records} {i : Nat} {k : KeySlot} (h : r.slot i = some k) (provision : Bool) :
    blobPayload i provision r = if provision = true then [slotStateCode (some k.state)] else le16 k.material.blobLength := by
  simp [blobPayload, Records.slotState, h]

section Writes

variable {s : State} (hp : s.powered = true) (hg : s.gate.selection = .idle)
include hp hg

/-- A created blob that is written stands, is not suspended, and is answered (R20, R185). -/
theorem blobPut_completes {i : Nat} {record : KeySlot} {provision : Bool}
    (hm : s.store.making = some ⟨.slotPut i record, .replyBlob i provision⟩) (hi : i < 24) (he : s.kept.slot i = none)
    (hl : s.kept.slotLabelFree record.label = true) (ho : record.slotClass = .owner → s.kept.vault.claimed = true) :
    ∃ t, exec .storeWriteComplete s = .next t ∧ t.store = { s.store with making := none } ∧
      (∀ j, j ≠ i → t.kept.slot j = s.kept.slot j) ∧ t.kept.slot i = some record ∧ t.suspended i = false ∧
      t.Answers s.asker .ok
        (if provision = true then [slotStateCode (some record.state)] else le16 record.material.blobLength) := by
  have stands := s.kept.withSlot_slot hi (some record)
  rw [← blobPayload_slot stands provision]
  exact ⟨_, complete_answers hp hm (Records.recheckSlot_put he hl ho) (u := clearMark i (s.withWritten (.slotPut i record))) rfl hg rfl,
    rfl, fun j hj => s.kept.withSlot_other hj _, stands, clearMark_suspended (s.withWritten _) i, answer_answers _ _ _⟩

/-- A chunk that follows an ACTIVE blob is appended and answered (R20). -/
theorem blobAppend_completes {p : Place} {offset : Nat} {chunk data : Bytes} {provision : Bool} {k : KeySlot}
    (hm : s.store.making = some ⟨.slotAppend p offset chunk, .replyBlob p.index provision⟩) (hk : s.kept.slotAt p = some k)
    (ha : k.state = .active) (hb : k.material = .blob data) (hl : offset = data.length) (hr : offset + chunk.length ≤ 1024) :
    ∃ t, exec .storeWriteComplete s = .next t ∧ t.kept.slot p.index = some { k with material := .blob (data ++ chunk) } ∧
      t.Answers s.asker .ok
        (if provision = true then [slotStateCode (some .active)] else le16 (data.length + chunk.length)) := by
  have room : s.kept.recheck (.slotAppend p offset chunk) = .ok () := by
    rw [Records.recheck_slotAppend_blob hk ha hb]
    exact checkRoom_ok (by rw [hb]; exact hl) hr
  have stands : (s.kept.updateSlot p (KeySlot.appended chunk)).slot p.index = some { k with material := .blob (data ++ chunk) } := by
    rw [(Records.updateSlot_some hk _).1, KeySlot.appended_blob hb]
  have payload := blobPayload_slot stands provision
  simp only [KeyMaterial.blobLength, List.length_append, ha] at payload
  rw [← payload]
  exact ⟨_, complete_answers hp hm room (u := s.withWritten (.slotAppend p offset chunk)) rfl hg rfl, stands, answer_answers _ _ _⟩

/-- KEY RESTRICT's write that is made gives the slot its narrowed policy and is answered as by KEY INFO (R21). -/
theorem restrict_completes {p : Place} {usage answers : Byte} {limit : Option Nat} {binding : Option Binding} {k : KeySlot}
    (hm : s.store.making = some ⟨.slotRestrict p usage answers limit binding, .replyKeyInfo p.index⟩) (hk : s.kept.slotAt p = some k)
    (ha : k.state = .active) (hn : k.narrowsTo usage answers limit binding = true) :
    ∃ t, exec .storeWriteComplete s = .next t ∧ t.kept.slot p.index = some (k.restricted usage answers limit binding) ∧
      t.Answers s.asker .ok (t.slotInfo p.index) := by
  have made := complete_answers hp hm (Records.recheck_slotRestrict_ok hk ha hn)
    (u := pruneMarks (s.withWritten (.slotRestrict p usage answers limit binding))) rfl hg rfl
  refine ⟨_, made, (Records.updateSlot_some hk _).1, ?_⟩
  rw [slotInfo_same (s := pruneMarks (s.withWritten (.slotRestrict p usage answers limit binding))) rfl rfl]
  exact answer_answers _ _ _

/-! ## The count that follows an imported slot (R19) -/

omit hg in
/-- A created slot whose import is to be counted is written, and the count of the unwrapping slot goes on (R19). -/
theorem import_completes {i : Nat} {u : Place} {record : KeySlot} {payload : Bytes}
    (hm : s.store.making = some ⟨.slotPut i record, .countUnwrap u payload⟩) (he : s.kept.slot i = none)
    (hl : s.kept.slotLabelFree record.label = true) (ho : record.slotClass = .owner → s.kept.vault.claimed = true)
    (t : State) (ht : writeSlot u (.slotCount u) (.reply payload) (clearMark i (s.withWritten (.slotPut i record))) = t)
    (hi : t.gate.selection = .idle) : exec .storeWriteComplete s = .next t.settle := by
  have goes : exec .storeWriteComplete s = .next (interruptStep
      (writeSlot u (.slotCount u) (.reply payload) (clearMark i (s.withWritten (.slotPut i record))))).settle :=
    exec_writeMade hp hm (Records.recheckSlot_put he hl ho)
  rw [goes, ht, interruptStep_idle hi]

end Writes

/-- No owner reset is begun where none waits and nothing is being made. -/
theorem resetBegun_waiting {s : State} (hm : s.store.making = none) (hw : ∀ item ∈ s.store.waiting, item.op ≠ .ownerReset) :
    s.resetBegun = false := by
  simpa [State.resetBegun, State.begun, hm] using hw

/-- A write of a slot that no check refuses is handed over where no owner reset is begun (R144). -/
theorem writeSlot_count {t : State} {p : Place} {k : KeySlot} (hs : t.kept.slotAt p = some k) (ha : k.state = .active)
    (hr : t.resetBegun = false) (after : After) : writeSlot p (.slotCount p) after t = t.handOver (.slotCount p) after := by
  simp only [writeSlot, hs, present_some, Checked.bind_ok, Records.recheckSlot_count hs ha, handSlot_open (fun _ => hr), Checked.pure_eq,
    served_ok]

theorem writeSlot_empty {t : State} {p : Place} (hs : t.kept.slotAt p = none) (op : StoreOp) (after : After) :
    writeSlot p op after t = refuse .slotEmpty t := by
  simp only [writeSlot, hs, present_none, Checked.bind_error, served_error]

/-- Settles O33: each completion by its write's checks, its records and its reply. -/
theorem keyWritesCompleteAndAnswer : Obligations.KeyWritesCompleteAndAnswer := by
  refine ⟨fun r i record hi he hl ho => ?_, fun r op p hop => Records.apply_changesSlot hop r,
    fun s i record chunk provision hp hg hm hb hi => ?_,
    fun s p offset chunk provision hp hg hm => ⟨fun k data hk ha hb => ?_, fun he => ?_⟩,
    fun s p usage answers limit binding k hp hg hm hk ha hu hus han hans hb hl => ?_,
    fun s i u record payload hp hg hm hi hne he hl ho => ⟨fun k hk ha hw => ?_, fun hk => ?_⟩⟩
  · rw [Records.apply_slotPut he hl ho]
    exact ⟨r.withSlot_slot hi _, fun j hj => r.withSlot_other hj _, r.withSlot_frame i _⟩
  · by_cases occupied : s.kept.slot i ≠ none
    · obtain ⟨t, ht, store, kept, replies⟩ := write_refuses hp hg hm (Records.recheck_slotPut_occupied occupied) fun _ => rfl
      exact ⟨t, ht, store, fun _ _ => by rw [kept], by rw [if_pos occupied]; exact ⟨kept, replies⟩⟩
    have empty : s.kept.slot i = none := Classical.not_not.1 occupied
    cases label : s.kept.slotLabelFree record.label with
    | false =>
      obtain ⟨t, ht, store, kept, replies⟩ := write_refuses hp hg hm (Records.recheck_slotPut_taken empty label) fun _ => rfl
      exact ⟨t, ht, store, fun _ _ => by rw [kept], by rw [if_neg occupied, if_pos rfl]; exact ⟨kept, replies⟩⟩
    | true =>
      by_cases unclaimed : record.slotClass = .owner ∧ s.kept.vault.claimed = false
      · obtain ⟨t, ht, store, kept, replies⟩ :=
          write_refuses hp hg hm (Records.recheck_slotPut_unclaimed empty label unclaimed) fun _ => rfl
        exact ⟨t, ht, store, fun _ _ => by rw [kept], by
          rw [if_neg occupied, if_neg (by decide), if_pos unclaimed]
          exact ⟨kept, replies⟩⟩
      · obtain ⟨t, ht, store, others, stands, free, replies⟩ :=
          blobPut_completes hp hg hm hi empty label fun owner => by simpa [owner] using unclaimed
        rw [hb] at replies
        exact ⟨t, ht, store, others, by
          rw [if_neg occupied, if_neg (by decide), if_neg unclaimed]
          exact ⟨stands, free, replies⟩⟩
  · by_cases room : offset = data.length ∧ offset + chunk.length ≤ 1024
    · simp only [if_pos room]
      exact blobAppend_completes hp hg hm hk ha hb room.1 room.2
    · simp only [if_neg room]
      have unfit : s.kept.recheck (.slotAppend p offset chunk) = .error .badArgument := by
        rw [Records.recheck_slotAppend_blob hk ha hb]
        exact checkRoom_unfit (by rw [hb]; exact room)
      obtain ⟨t, ht, _, kept, replies⟩ := write_refuses hp hg hm unfit fun _ => rfl
      exact ⟨t, ht, kept, replies⟩
  · obtain ⟨t, ht, _, kept, replies⟩ := write_refuses hp hg hm (Records.recheck_slotAppend_empty he offset chunk) fun _ => rfl
    exact ⟨t, ht, kept, replies⟩
  · obtain ⟨t, ht, stands, replies⟩ := restrict_completes hp hg hm hk ha (KeySlot.narrowsTo_true hu hus han hans hb hl)
    obtain ⟨usages, answerSet, limits, bindings, count, label, state⟩ := KeySlot.restricted_fields ha usage answers limit binding
    exact ⟨t, _, ht, stands, usages, answerSet, limits, bindings, count, label, by rw [state, limits], replies⟩
  · have slot : (clearMark i (s.withWritten (.slotPut i record))).kept.slotAt u = some k :=
      (Records.withSlot_slotAt hne _).trans hk
    have counts := writeSlot_count slot ha (resetBegun_waiting rfl hw) (.reply payload)
    exact ⟨_, import_completes hp hm he hl ho _ counts hg, s.kept.withSlot_slot hi _, rfl, rfl⟩
  · have slot : (clearMark i (s.withWritten (.slotPut i record))).kept.slotAt u = none :=
      (Records.withSlot_slotAt hne _).trans hk
    exact ⟨_, import_completes hp hm he hl ho _ (writeSlot_empty slot _ _) hg, s.kept.withSlot_slot hi _, answer_answers _ _ _, rfl⟩

end Sys2Proof.Machine
end

section
/-! SUPPORT. Proofs for chapter 1, part 11: PROVISION SLOT, and the factory requests in FIELD (R184, R185). -/

namespace Sys2Proof.Machine

/-! ## The checks of PROVISION SLOT -/

theorem checkProvision_ok {i : Nat} {p : Policy} {s : State} (hc : p.classCode = 0) (hw : p.wellFormed .factory = true)
    (he : s.kept.slot i = none) (hl : s.kept.slotLabelFree p.label = true) : checkProvision i p s = .ok () := by
  simp only [checkProvision, hc, beq_self_eq_true, hw, Bool.and_self, check_true, Checked.bind_ok, he, Option.isNone_none, hl]

/-- The forms of PROVISION SLOT on slots 0..3. -/
theorem serveProvisionSlot_generate {i : Byte} (hi : i.toNat ≤ 3) (identity : Nat) (rest : Bytes) (u : State) :
    serveProvisionSlot identity (i :: 0 :: rest) u = served (provisionGenerate i.toNat rest u) u := by
  simp only [serveProvisionSlot, takeNumber_one, layout_some, Checked.bind_ok, hi, decide_true, check_true]
  rfl

theorem serveProvisionSlot_public {i : Byte} (hi : i.toNat ≤ 3) (identity : Nat) (rest : Bytes) (u : State) :
    serveProvisionSlot identity (i :: 1 :: rest) u = served (provisionPublic i.toNat rest u) u := by
  simp only [serveProvisionSlot, takeNumber_one, layout_some, Checked.bind_ok, hi, decide_true, check_true]
  rfl

theorem serveProvisionSlot_blob {i : Byte} (hi : i.toNat ≤ 3) (identity : Nat) (rest : Bytes) (u : State) :
    serveProvisionSlot identity (i :: 2 :: rest) u = served (provisionBlob i.toNat rest u) u := by
  simp only [serveProvisionSlot, takeNumber_one, layout_some, Checked.bind_ok, hi, decide_true, check_true]
  rfl

theorem serveProvisionSlot_erase {i : Byte} (hi : i.toNat ≤ 3) (identity : Nat) (u : State) :
    serveProvisionSlot identity [i, 3] u = served (provisionErase i.toNat [] u) u := by
  simp only [serveProvisionSlot, takeNumber_one, layout_some, Checked.bind_ok, hi, decide_true, check_true]
  rfl

/-- A FACTORY slot is created whatever the vault is (R17, R144). -/
theorem createSlot_factory {u : State} {i : Nat} {k : KeySlot} (h : k.slotClass = .factory) (after : After) :
    createSlot i k after u = u.handOver (.slotPut i k) after :=
  createSlot_open (fun ho => by rw [h] at ho; cases ho) after

/-- A write of a FACTORY slot is handed over whatever the vault is (R144). -/
theorem handSlot_factory (u : State) (op : StoreOp) (after : After) : handSlot .factory op after u = u.handOver op after :=
  handSlot_open (c := .factory) nofun op after

/-! ## The forms that create a slot -/

section Creates

variable {u : State} {i : Nat} {p : Policy} {rest : Bytes} (hc : p.classCode = 0) (hw : p.wellFormed .factory = true)
  (he : u.kept.slot i = none) (hl : u.kept.slotLabelFree p.label = true)
include hc hw he hl

theorem provisionGenerate_begins (hp : takePolicy rest = some (p, []))
    (hk : KeyKind.ofCode p.kindCode = some .signingPair ∨ KeyKind.ofCode p.kindCode = some .secret) :
    provisionGenerate i rest u = .ok (beginGeneration i p true u) := by
  have kind : checkPolicyKind generatedKinds p = .ok () := by
    rcases hk with hk | hk <;> exact checkPolicyKind_ok hk (by decide)
  simp only [provisionGenerate, hp, layout_some, Checked.bind_ok, atEnd_nil, checkProvision_ok hc hw he hl, kind, Checked.pure_eq]

theorem provisionPublic_creates {key : Bytes} (hp : takePolicy rest = some (p, key)) (h64 : key.length = 64)
    (hk : KeyKind.ofCode p.kindCode = some .verifyPublic) :
    provisionPublic i rest u =
      if Config.pointOnCurve key = true then
        .ok (u.handOver (.slotPut i (p.newSlot .factory (.verifyPublic key) u.ism)) (.reply [1]))
      else .error .badArgument := by
  have whole : takeBytes 64 key = some (key, []) := h64 ▸ takeBytes_all key
  simp only [provisionPublic, hp, layout_some, Checked.bind_ok, whole, atEnd_nil, checkProvision_ok hc hw he hl,
    checkPolicyKind_ok hk (List.mem_singleton.2 rfl), check_bind,
    createSlot_factory (k := p.newSlot .factory (.verifyPublic key) u.ism) rfl, Checked.pure_eq, slotStateCode]

theorem provisionBlob_creates {chunk : Bytes} (hp : takePolicy rest = some (p, chunk)) (h1 : 1 ≤ chunk.length) (h2 : chunk.length ≤ 512)
    (hk : KeyKind.ofCode p.kindCode = some .blob) :
    provisionBlob i (0 :: 0 :: rest) u =
      .ok (u.handOver (.slotPut i (p.newSlot .factory (.blob chunk) u.ism)) (.replyBlob i true)) := by
  have offset : takeNumber 2 (0 :: 0 :: rest) = some (0, rest) := takeNumber_le16 0 rest (by decide)
  simp only [provisionBlob, offset, layout_some, Checked.bind_ok, if_true, provisionFirstChunk, hp, checkProvision_ok hc hw he hl,
    checkPolicyKind_ok hk (List.mem_singleton.2 rfl), chunkFits_ok h1 h2, check_true,
    createSlot_factory (k := p.newSlot .factory (.blob chunk) u.ism) rfl, Checked.pure_eq]

end Creates

/-! ## The forms on a slot that stands -/

/-- A later chunk that follows an ACTIVE FACTORY blob is handed over (R20, R185). -/
theorem provisionBlob_appends {u : State} {i : Nat} {k : KeySlot} {data chunk : Bytes} (hi : i ≤ 3) (hk : u.kept.slot i = some k)
    (hf : k.slotClass = .factory) (ha : k.state = .active) (hb : k.material = .blob data) (h0 : 0 < data.length)
    (h1 : 1 ≤ chunk.length) (h2 : chunk.length ≤ 512) (hl : data.length + chunk.length ≤ 1024) :
    provisionBlob i (le16 data.length ++ chunk) u =
      .ok (u.handOver (.slotAppend (u.kept.slotPlace i) data.length chunk) (.replyBlob i true)) := by
  have room : checkRoom data.length chunk k = .ok () := checkRoom_ok (by rw [hb]; rfl) hl
  simp only [provisionBlob, takeNumber_le16 data.length chunk (by omega), layout_some, Checked.bind_ok, Nat.ne_of_gt h0, if_false,
    provisionLaterChunk, chunkFits_ok h1 h2, check_true, findSlot_ok (show i ≤ 23 by omega) hk, checkKind, hb, KeyMaterial.kind,
    show [KeyKind.blob].contains .blob = true from rfl, checkActive_ok ha, room, hf, handSlot_factory, Checked.pure_eq]

theorem provisionErase_empty {u : State} {i : Nat} (h : u.kept.slot i = none) : provisionErase i [] u = .ok (answer .ok [0] u) := by
  simp only [provisionErase, atEnd_nil, layout_some, Checked.bind_ok, h, Checked.pure_eq, slotStateCode]

theorem provisionErase_erases {u : State} {i : Nat} {k : KeySlot} (h : u.kept.slot i = some k) (hf : k.slotClass = .factory) :
    provisionErase i [] u = .ok (u.handOver (.slotErase (u.kept.slotPlace i)) (.reply [0])) := by
  simp only [provisionErase, atEnd_nil, layout_some, Checked.bind_ok, h, hf, handSlot_factory, Checked.pure_eq, slotStateCode]

/-! ## FIELD (R184) -/

/-- In FIELD step 6 refuses every factory request. -/
theorem checkRight_field {s : State} {code : Req} (h1 : code ≠ .setParameter) (h2 : code.isFactory = true)
    (h3 : s.kept.lifecycle = .field) (i : Nat) (p : Bytes) : checkRight code i p s = .error .notPermitted := by
  simp [checkRight, h1, h2, h3, check]

/-- A heard factory request in FIELD is refused NOT_PERMITTED, whichever it is. -/
theorem factory_denied {s : State} {identity : Byte} {payload : Bytes} {c : Instr} (hf : s.kept.lifecycle = .field)
    (h : s.Hears identity payload) (hc : c ∈ [.provisionSlotGenerate identity payload, .provisionSlotPublic identity payload,
      .provisionSlotBlob identity payload, .provisionSlotErase identity payload, .provisionCredential identity payload,
      .provisionLayout identity payload, .provisionGolden identity payload, .lockFactory identity payload]) :
    ∃ t, exec c s = .next t ∧ Replies s identity .notPermitted [] t := by
  have denied : ∀ (code : Req) (serve : Nat → Bytes → State → State), code ≠ .setParameter → code.isFactory = true →
      ∃ t, event true (request code serve identity payload) s = .next t ∧ Replies s identity .notPermitted [] t :=
    fun code serve h1 h2 => request_denied h serve (checkRight_field h1 h2 hf _ _)
  simp only [List.mem_cons, List.not_mem_nil, or_false] at hc
  rcases hc with rfl | rfl | rfl | rfl | rfl | rfl | rfl | rfl
  all_goals exact denied _ _ nofun rfl

/-- Settles O59: each form of PROVISION SLOT by its service, and FIELD by step 6. -/
theorem provisionSlotWritesFactorySlots : Obligations.ProvisionSlotWritesFactorySlots := by
  refine ⟨fun s identity i rest tail p hm hi hp hc hw he hl =>
      ⟨fun ht hk h => ?_, fun h64 hk h => ?_, fun h1 h2 hk h => ?_⟩,
    fun s identity i k data chunk hm hi hk hf ha hb h0 h1 h2 hl h => ?_,
    fun s identity i hm hi h => ⟨fun he => ?_, fun k hk hf => ?_⟩,
    fun s identity payload c hf h hc => factory_denied hf h hc⟩
  · subst ht
    exact request_generates h (checkRight_factory nofun rfl hm) rfl fun u hu => by
      rw [serveProvisionSlot_generate hi, provisionGenerate_begins hc hw (by rw [hu.kept, he]) (by rw [hu.kept, hl]) hp hk, served_ok]
  · have served_eq : ∀ u, Serving s .provisionSlot identity (i :: 1 :: rest) u → serveProvisionSlot identity.toNat (i :: 1 :: rest) u =
        served (if Config.pointOnCurve tail = true then
            .ok (u.handOver (.slotPut i.toNat (p.newSlot .factory (.verifyPublic tail) s.ism)) (.reply [1]))
          else .error .badArgument) u := fun u hu => by
      rw [serveProvisionSlot_public hi, provisionPublic_creates hc hw (by rw [hu.kept, he]) (by rw [hu.kept, hl]) hp h64 hk, hu.ism]
    by_cases curve : Config.pointOnCurve tail = true
    · simp only [if_pos curve] at served_eq ⊢
      exact request_hands h (checkRight_factory nofun rfl hm) rfl served_eq
    · simp only [if_neg curve] at served_eq ⊢
      exact request_refused h _ (checkRight_factory nofun rfl hm) rfl served_eq
  · exact request_hands h (checkRight_factory nofun rfl hm) rfl fun u hu => by
      rw [serveProvisionSlot_blob hi, provisionBlob_creates hc hw (by rw [hu.kept, he]) (by rw [hu.kept, hl]) hp h1 h2 hk, served_ok, hu.ism]
  · exact request_hands h (checkRight_factory nofun rfl hm) rfl fun u hu => by
      rw [serveProvisionSlot_blob hi, provisionBlob_appends hi (by rw [hu.kept, hk]) hf ha hb h0 h1 h2 hl, served_ok, hu.kept]
  · exact request_answered h (checkRight_factory nofun rfl hm) rfl fun u hu => by
      rw [serveProvisionSlot_erase hi, provisionErase_empty (by rw [hu.kept, he]), served_ok]
  · exact request_hands h (checkRight_factory nofun rfl hm) rfl fun u hu => by
      rw [serveProvisionSlot_erase hi, provisionErase_erases (by rw [hu.kept, hk]) hf, served_ok, hu.kept]

end Sys2Proof.Machine
end

section
/-! SUPPORT. Proofs for chapter 2, part 1: what the end of a store write goes on to keeps the laws of the chains and the log, of the counts and
of the jobs, and what bounds the log (R36, R70, R182). -/

namespace Sys2Proof.Machine

/-! ## What every command carries on -/

/-- An effect that carries the laws of a run on, whatever it does to the records, the time and the power. -/
structure Carries (s t : State) : Prop where
  measured : s.ism.Lawful → t.ism.Lawful
  inRange : s.InRange → t.InRange
  jobs : s.JobsMatch → t.JobsMatch
  bounded : s.JobsMatch → s.LogBounded → t.LogBounded

theorem Carries.refl (s : State) : Carries s s := ⟨id, id, id, fun _ => id⟩

theorem Carries.trans {s t u : State} (h : Carries s t) (k : Carries t u) : Carries s u :=
  ⟨fun l => k.measured (h.measured l), fun l => k.inRange (h.inRange l), fun l => k.jobs (h.jobs l),
    fun j l => k.bounded (h.jobs j) (h.bounded j l)⟩

theorem Regular.carries {s t : State} (r : Regular s t) : Carries s t := ⟨r.measured, r.inRange, r.jobs, r.bounded⟩

/-- An effect that follows, and keeps what bounds the log where the state before both was bounded. -/
theorem Carries.followed {s t u : State} (h : Carries s t) (k : Keeps t u) (b : s.LogBounded → Regular t u) : Carries s u :=
  ⟨fun l => k.measured (h.measured l), fun l => k.inRange (h.inRange l), fun l => k.jobs (h.jobs l),
    fun j l => (b l).bounded (h.jobs j) (h.bounded j l)⟩

/-! ## Effects beside the records (R182) -/

theorem patternWritten_regular (number : Nat) (s : State) : Regular s (patternWritten number s) := by
  unfold patternWritten
  split
  · exact .plain rfl
  · exact .refl s

theorem paramWritten_regular (p : BootParam) (s : State) : Regular s (paramWritten p s) := by
  unfold paramWritten
  split
  · exact .plain rfl
  · exact .refl s

theorem closeVerification_regular (s : State) : Regular s (closeVerification s) :=
  ⟨rfl, rfl, rfl, rfl, rfl, id, fun l => { l with }, fun l => { l with }, fun _ l => { l with manifest := nofun }⟩

theorem stagedWritten_regular (record : Staged) (s : State) : Regular s (stagedWritten record s) := by
  unfold stagedWritten
  split
  · exact raise_regular _ _
  · exact .after (raise_regular _ _) (closeVerification_regular s)
  · exact .refl s

/-- A fire count that is set to 0 stays in its range (R158, R165). -/
theorem clearEntry_regular (i : Nat) (s : State) : Regular s (clearEntry i s) :=
  ⟨rfl, rfl, rfl, rfl, rfl, id, fun l => { l with
    fires := fun j n hn => by
      simp only [clearEntry, Vector.getElem?_setIfInBounds] at hn
      split at hn
      · split at hn
        · cases hn
          exact Nat.zero_le _
        · cases hn
      · exact l.fires j n hn }, fun l => { l with }, fun _ l => { l with }⟩

theorem completionEffects_regular (old : Records) (op : StoreOp) (s : State) : Regular s (completionEffects old op s) := by
  cases op with
  | credPut record =>
    simp only [completionEffects]
    split
    · exact .plain rfl
    · exact .refl s
  | credValue p value clear restart => cases clear <;> cases restart <;> exact .plain rfl
  | patternPut number p => exact patternWritten_regular _ _
  | reactionPut i entry => exact clearEntry_regular _ _
  | bootParam p n => exact paramWritten_regular _ _
  | stagedPut record => exact stagedWritten_regular _ _
  | _ => exact .plain rfl

theorem whilePresent_regular {p : Place} {effect : State → State} {s : State} (h : Regular s (effect s)) :
    Regular s (whilePresent p effect s) := by
  unfold whilePresent
  split
  · exact h
  · exact .refl s

theorem failureEffects_regular (op : StoreOp) (s : State) : Regular s (failureEffects op s) := by
  cases op with
  | credMatch p => exact whilePresent_regular (.plain rfl)
  | credDecay p interval => exact whilePresent_regular (.plain rfl)
  | stagedPut record =>
    cases record with
    | verified fields candidate => exact closeVerification_regular s
    | _ => exact .refl s
  | _ => exact .refl s

/-- The selection under way and the writes begun are as they were. -/
def State.SelectsAs (s t : State) : Prop := t.gate.selection = s.gate.selection ∧ t.begun = s.begun

theorem State.Selects.same {s t : State} (h : s.Selects) (k : s.SelectsAs t) : t.Selects :=
  ⟨by rw [k.1]; exact h.1, by rw [k.2]; exact h.2⟩

theorem completionEffects_selectsAs (old : Records) (op : StoreOp) (s : State) : s.SelectsAs (completionEffects old op s) := by
  cases op with
  | credPut record =>
    simp only [completionEffects]
    split <;> exact ⟨rfl, rfl⟩
  | credValue p value clear restart => cases clear <;> cases restart <;> exact ⟨rfl, rfl⟩
  | patternPut number p =>
    simp only [completionEffects, patternWritten]
    split <;> exact ⟨rfl, rfl⟩
  | bootParam p n =>
    simp only [completionEffects, paramWritten]
    split <;> exact ⟨rfl, rfl⟩
  | stagedPut record => cases record <;> exact ⟨rfl, rfl⟩
  | _ => exact ⟨rfl, rfl⟩

theorem failureEffects_selectsAs (op : StoreOp) (s : State) : s.SelectsAs (failureEffects op s) := by
  cases op with
  | credMatch p =>
    simp only [failureEffects, whilePresent]
    split <;> exact ⟨rfl, rfl⟩
  | credDecay p interval =>
    simp only [failureEffects, whilePresent]
    split <;> exact ⟨rfl, rfl⟩
  | stagedPut record => cases record <;> exact ⟨rfl, rfl⟩
  | _ => exact ⟨rfl, rfl⟩

/-! ## The write held back during an owner reset (R144) -/

/-- A request that is refused or has an effect that keeps the laws. -/
theorem served_keeps {result : Checked State} {s : State} (h : result.Gives (Keeps s)) : Keeps s (served result s) := by
  unfold served
  split
  · exact h _ rfl
  · exact (refuse_regular _ _).keeps

theorem handSlot_keeps (c : SlotClass) (op : StoreOp) (a : After) (s : State) : Keeps s (handSlot c op a s) := by
  unfold handSlot
  split
  · exact ⟨rfl, rfl, rfl, rfl, rfl, id, fun l => { l with }, fun l => { l with }⟩
  · exact handOver_keeps _ _ _

theorem writeSlot_keeps (p : Place) (op : StoreOp) (a : After) (s : State) : Keeps s (writeSlot p op a s) :=
  served_keeps (Checked.gives_bind fun _ _ => Checked.gives_bind fun _ _ => Checked.gives_pure (handSlot_keeps _ _ _ _))

theorem createSlot_keeps (i : Nat) (k : KeySlot) (a : After) (s : State) : Keeps s (createSlot i k a s) := by
  unfold createSlot
  split
  · exact ⟨rfl, rfl, rfl, rfl, rfl, id, fun l => { l with }, fun l => { l with }⟩
  · split
    · exact (refuse_regular _ _).keeps
    · exact handOver_keeps _ _ _

/-- A write to a slot puts no regions into the records. -/
theorem StoreOp.fewRegions_of_slot {op : StoreOp} {p : Place} (h : op.slot = some p) : op.FewRegions := by
  cases op with
  | goldenPut | stagedPut => cases h
  | _ => trivial

/-- The write held back is taken from its place. -/
theorem takeHeld_regular (s : State) : Regular s { s with keys := { s.keys with held := none } } :=
  ⟨rfl, rfl, rfl, rfl, rfl, id, fun l => { l with }, fun l => { l with }, fun _ l => { l with
    heldBack := fun _ held => absurd held (Option.not_mem_none _) }⟩

theorem releaseHeld_keeps (s : State) : Keeps s (releaseHeld s) := by
  have taken := (takeHeld_regular s).keeps
  unfold releaseHeld
  split
  · exact .refl s
  · exact .after (createSlot_keeps _ _ _ _) taken
  · split
    · exact .after (writeSlot_keeps _ _ _ _) taken
    · exact taken

theorem releaseHeld_regular (s : State) : Regular s (releaseHeld s) := by
  refine (releaseHeld_keeps s).bounded fun l => ?_
  have taken := takeHeld_regular s
  unfold releaseHeld
  split
  · exact .refl s
  · next held => exact .after (createSlot_regular _ _ _ _ (l.heldBack _ held)) taken
  · next held =>
    split
    · next named => exact .after (writeSlot_regular _ _ _ _ (StoreOp.fewRegions_of_slot named) (l.heldBack _ held)) taken
    · exact taken

/-! ## What the writer goes on with (R182, R183) -/

/-- The end of an owner reset (R144, R145). -/
theorem resetEnded_regular {s t : State} (h : Regular s t) : Regular s (vaultFreed (releaseHeld t)) :=
  .after (vaultFreed_regular _) (.after (releaseHeld_regular t) h)

/-- The writer goes on; after the write of a trial, in a selection that is under way (R70). -/
theorem goOn_regular (a : After) (s : State) (h : a = .trialSelected → s.Selects) : Regular s (goOn a s) := by
  cases a with
  | silent => exact .refl s
  | countUnwrap p payload => exact writeSlot_regular _ _ _ _ trivial nofun
  | compare p before candidate newValue => exact beginCompare_regular _ _ _ _ _
  | reactionWrite hold =>
    cases hold with
    | true => exact holdSoc_regular s
    | false => exact .refl s
  | accept requester => exact acceptVerification_regular _ _
  | trialSelected => exact selectTrial_regular s (h rfl)
  | decayed i => exact decayEnded_regular i s
  | resetDone request =>
    cases request with
    | true => exact resetEnded_regular (answer_regular _ _ _)
    | false => exact resetEnded_regular (.refl s)
  | _ => exact answer_regular _ _ _

theorem goOnFailed_regular (status : Status) (a : After) (s : State) (h : a = .trialSelected → s.Selects) :
    Regular s (goOnFailed status a s) := by
  cases a with
  | silent => exact .refl s
  | reactionWrite hold =>
    cases hold with
    | true => exact holdSoc_regular s
    | false => exact .refl s
  | trialSelected => exact selectActive_regular s (h rfl)
  | decayed i => exact decayEnded_regular i s
  | resetDone request =>
    cases request with
    | true => exact resetEnded_regular (refuse_regular _ _)
    | false => exact resetEnded_regular (.refl s)
  | _ => exact refuse_regular _ _

theorem goOn_keeps (a : After) (s : State) : Keeps s (goOn a s) := by
  by_cases trial : a = .trialSelected
  · rw [trial]
    exact selectTrial_keeps s
  · exact (goOn_regular a s fun e => absurd e trial).keeps

theorem goOnFailed_keeps (status : Status) (a : After) (s : State) : Keeps s (goOnFailed status a s) := by
  by_cases trial : a = .trialSelected
  · rw [trial]
    exact selectActive_keeps s
  · exact (goOnFailed_regular status a s fun e => absurd e trial).keeps

/-! ## The end of an item (R182, R183) -/

/-- The item being made leaves the store, with the records as given. -/
def State.itemGone (s : State) (r : Records) : State := { s with kept := r, store := { s.store with making := none } }

theorem itemGone_carries {s : State} {item : StoreItem} (hm : s.store.making = some item) {r : Records}
    (hr : s.LogBounded → r.FewRegions) : Carries s (s.itemGone r) :=
  ⟨id, fun l => { l with }, fun l => { l with }, fun _ l => (l.itemEnds hm (hr l)).1⟩

theorem itemGone_selects {s : State} {item : StoreItem} (hm : s.store.making = some item) {r : Records} (l : s.LogBounded)
    (hr : r.FewRegions) : item.after = .trialSelected → (s.itemGone r).Selects := (l.itemEnds hm hr).2

/-- The records take an item of at most 8 regions (R92). -/
theorem fewRegions_apply {s : State} {item : StoreItem} (hm : s.store.making = some item) (l : s.LogBounded) :
    (s.kept.apply item.op).FewRegions :=
  l.records.apply (l.writes item (by simp [State.begun, hm]))

theorem complete_carries {s : State} {item : StoreItem} (hm : s.store.making = some item) : Carries s (complete item s) := by
  refine .trans ?_ (interruptStep_regular _).carries
  split
  · have effects := completionEffects_regular s.kept item.op (s.itemGone (s.kept.apply item.op))
    refine (itemGone_carries hm (fewRegions_apply hm)).followed (.after (goOn_keeps item.after _) effects.keeps) fun l =>
      .after (goOn_regular _ _ fun trial => ?_) effects
    exact (itemGone_selects hm l (fewRegions_apply hm l) trial).same (completionEffects_selectsAs _ _ _)
  · next status _ =>
    exact (itemGone_carries hm fun l => l.records).followed (goOnFailed_keeps status item.after _) fun l =>
      goOnFailed_regular _ _ _ (itemGone_selects hm l l.records)

theorem failItem_carries {s : State} {item : StoreItem} (hm : s.store.making = some item) : Carries s (failItem item s) := by
  refine .trans ?_ (interruptStep_regular _).carries
  have effects : Regular (s.itemGone s.kept) (failureEffects item.op (State.raise .storeFault (s.itemGone s.kept))) :=
    .after (failureEffects_regular _ _) (raise_regular _ _)
  refine (itemGone_carries hm fun l => l.records).followed (.after (goOnFailed_keeps .storeFault item.after _) effects.keeps) fun l =>
    .after (goOnFailed_regular _ _ _ fun trial => ?_) effects
  exact (itemGone_selects hm l l.records trial).same (failureEffects_selectsAs item.op _)

theorem completeNow_carries (s : State) : Carries s (completeNow s) := by
  unfold completeNow
  split
  · next hm => exact complete_carries hm
  · exact .refl s

theorem failNow_carries (s : State) : Carries s (failNow s) := by
  unfold failNow
  split
  · next hm => exact failItem_carries hm
  · exact .refl s

end Sys2Proof.Machine
end

section
/-! SUPPORT. Proofs for chapter 2, part 2: every command, and every step, carries on the laws of the chains and the log, of the counts and of the
jobs, and what bounds the log (R30, R32, R34, R36, R72, R73). -/

namespace Sys2Proof.Machine

/-! ## Power (R182, R190) -/

section Volatile

variable (kept : Records) (pressed : Bool) (draws : Nat) (pending : List Instr)

/-- At power-on every count is within its range (R62, R64, R79, R88, R158, R173, R174, R181). -/
theorem volatileReset_inRange : (State.volatileReset kept pressed draws pending).InRange where
  releaseCount := (by decide : 0 < 64)
  failures := Nat.zero_le _
  rounds := Nat.zero_le _
  skips := Nat.zero_le _
  badRun := Nat.zero_le _
  overruns := Nat.zero_le _
  violations := Nat.zero_le _
  fires i n hn := by
    simp only [State.volatileReset, Vector.getElem?_replicate] at hn
    split at hn
    · cases hn
      exact Nat.zero_le _
    · cases hn
  uptime := (by decide : 0 < 2 ^ 48)

/-- At power-on no requester has a job. -/
theorem volatileReset_jobs : (State.volatileReset kept pressed draws pending).JobsMatch :=
  ⟨fun _ hj => absurd hj List.not_mem_nil, fun _ hj => absurd hj List.not_mem_nil, fun _ hj => absurd hj (Option.not_mem_none _)⟩

/-- At power-on no measurement job is left, no entry has been made and no write is begun (R36, R183, R190). -/
theorem volatileReset_bounded (h : kept.FewRegions) : (State.volatileReset kept pressed draws pending).LogBounded where
  jobs := Nat.le_refl 0
  total := Nat.zero_le 8
  measuring left := absurd left (Nat.lt_irrefl 0)
  selecting selected := absurd rfl selected
  reboot := nofun
  trial := Nat.zero_le _
  heldBack _ held := absurd held (Option.not_mem_none _)
  records := h
  writes _ begun := absurd begun List.not_mem_nil
  manifest _ known := absurd known (Option.not_mem_none _)

end Volatile

/-- What power loss leaves of the records holds at most 8 regions in each set (R92, R182). -/
theorem State.LogBounded.keptAfterLoss {s : State} (l : s.LogBounded) (landed : Bool) : (s.keptAfterLoss landed).FewRegions := by
  unfold State.keptAfterLoss
  split
  · next making => exact fewRegions_apply making l
  · exact l.records

/-- Power-on from the records that are kept starts a run: its volatile state has the values of R190, whatever came before. -/
theorem volatileReset_carries {kept : Records} {s : State} (h : s.LogBounded → kept.FewRegions) (pressed : Bool) (draws : Nat)
    (pending : List Instr) : Carries s (State.volatileReset kept pressed draws pending) :=
  ⟨fun _ => Ism.Lawful.start, fun _ => volatileReset_inRange _ _ _ _, fun _ => volatileReset_jobs _ _ _ _,
    fun _ l => volatileReset_bounded _ _ _ _ (h l)⟩

theorem imposePenalties_regular (s : State) : Regular s (imposePenalties s) := .plain rfl

/-- Power-on's start of measurement finds the Boot Gate settled (R66, R190). -/
theorem powerOnFrom_regular (kept : Records) (pressed : Bool) (draws : Nat) (pending : List Instr) :
    Regular (State.volatileReset kept pressed draws pending) (powerOnFrom kept pressed draws pending) :=
  .after (settle_regular _) (.after (startOfMeasurement_settled _ _ fun _ => ⟨rfl, rfl⟩) (imposePenalties_regular _))

theorem unpowered_carries (kept : Records) (s : State) :
    Carries (State.volatileReset kept s.biu.pressed s.draws s.pending) (unpowered kept s) :=
  ⟨id, fun l => { l with }, fun l => { l with }, fun _ l => { l with }⟩

/-! ## The Boot Gate's own events -/

/-- Where the dwell runs the Boot Gate is settled (R79). -/
theorem State.LogBounded.dwelling {s : State} (l : s.LogBounded) (h : s.gate.dwell ≠ none) : s.Settled :=
  ⟨Decidable.byContradiction fun k => h (l.measuring (Nat.pos_of_ne_zero k)).2.1,
    Decidable.byContradiction fun k => h (l.selecting k).2.1⟩

/-- In FAULT_HOLD the Boot Gate is settled (R79). -/
theorem State.LogBounded.faulted {s : State} (l : s.LogBounded) (h : s.gate.state = .faultHold) : s.Settled := by
  have unmeasured : s.gate.state ≠ .measuring := by rw [h]; exact nofun
  exact ⟨Decidable.byContradiction fun k => unmeasured (l.measuring (Nat.pos_of_ne_zero k)).1,
    Decidable.byContradiction fun k => unmeasured (l.selecting k).1⟩

theorem reached_some {deadline : Option Nat} {now : Nat} (h : reached deadline now = true) : deadline ≠ none := by
  cases deadline with
  | none => cases h
  | some expiry => exact nofun

theorem socRestarted_regular (s : State) (h : s.socRuns = true) : Regular s (socRestarted s) := by
  have runs : s.held = false := by simpa [State.socRuns] using h
  unfold socRestarted
  split
  · exact startOfMeasurement_settled _ _ fun l => l.running runs
  · exact failOrReboot_regular s runs

theorem silenceExpired_regular (s : State) : Regular s (silenceExpired s) :=
  .after (fire_regular _ _ _) (.after (raise_regular _ _) (.plain rfl))

/-- A short press in FAULT_HOLD clears the failure count (R80). -/
theorem clearFailures_regular (s : State) : Regular s { s with gate := { s.gate with failures := 0 } } :=
  ⟨rfl, rfl, rfl, rfl, rfl, id, fun l => { l with failures := Nat.zero_le _ }, fun l => { l with }, fun _ l => { l with }⟩

theorem gatePress_regular (s : State) : Regular s (gatePress s) := by
  unfold gatePress
  split
  · next pressed =>
    dsimp only
    split
    · exact .after (startOfMeasurement_settled _ _ fun l => l.faulted pressed.1)
        (.after (handOver_regular (.recoveryNext true) .silent _) (clearFailures_regular s))
    · exact .after (startOfMeasurement_settled _ _ fun l => l.faulted pressed.1) (clearFailures_regular s)
  · exact .refl s

theorem debouncedRelease_regular (s : State) : Regular s (debouncedRelease s) := by
  unfold debouncedRelease
  dsimp only
  split
  · exact .after (gatePress_regular _) (.after (raise_regular _ _) (.after (openWindow_regular _) (.plain rfl)))
  · exact .plain rfl

theorem buttonHeld_regular (s : State) : Regular s (buttonHeld s) := .after (fire_regular _ _ _) (.plain rfl)

/-! ## The engines' events -/

theorem credMismatched_regular (i before : Nat) (c : Credential) (s : State) : Regular s (credMismatched i before c s) := by
  have answered : Regular s (answer .noMatch (le32 (penalty s.kept.vault c.failures) ++ [byteOf c.failures])
      { s with vault := s.vault.withPenalty i (penaltyFrom s.kept.vault (s.vault.clockOf i) c.failures) }) :=
    .after (answer_regular _ _ _) (.plain rfl)
  unfold credMismatched
  refine .after (fire_regular _ _ _) ?_
  split
  · exact .after (raise_regular _ _) answered
  · exact answered

theorem compared_regular (p : Place) (before : Nat) (newValue : Option Bytes) (value : Bytes) (s : State) :
    Regular s (compared p before newValue value s) := by
  unfold compared
  split
  · split
    · cases newValue with
      | none => exact handOver_regular _ _ _
      | some new => exact beginVerifier_regular _ _ _ _
    · exact credMismatched_regular _ _ _ _
  · exact refuse_regular _ _

theorem linkDigestDone_regular (d : Bytes) (s : State) : Regular s (linkDigestDone d s) := by
  unfold linkDigestDone
  split
  · exact placeSign_regular _ _ _ _
  · exact countUse_regular _ _ _ _
  · exact extendDataDone_regular _ _ _ _
  · exact placeSign_regular _ _ _ _
  · exact compared_regular _ _ _ _ _
  · exact handOver_regular _ _ _
  · exact writeEnrolled_regular _ _ _
  · exact writeProvisioned_regular _ _ _
  all_goals exact .refl s

theorem contextDone_regular (which : CtxId) (s : State) : Regular s (contextDone which s) := by
  cases which with
  | reader => exact endJobIfDone_regular s
  | link => exact linkDigestDone_regular _ _

/-- The Digest Engine's own state is in none of the laws. -/
theorem withDigest_carries (d : DigestEngine) (s : State) : Carries s { s with digest := d } :=
  ⟨id, fun l => { l with }, fun l => { l with }, fun _ l => { l with }⟩

theorem absorbNow_carries (s : State) : Carries s (absorbNow s) := by
  unfold absorbNow blockAbsorbed
  split
  · dsimp only
    refine .trans ?_ (withDigest_carries _ _)
    split
    · exact .trans (withDigest_carries _ s) (contextDone_regular _ _).carries
    · exact withDigest_carries _ s
  · exact .refl s

theorem engineDone_regular (s : State) : Regular s (engineDone s) := by
  unfold engineDone
  split
  · unfold signatureDone
    split
    · exact .after (countUse_regular _ _ _ _) (.plain rfl)
    · exact .after (countUse_regular _ _ _ _) (.plain rfl)
    · exact .plain rfl
  · exact .after (verdictDone_regular _ _) (.plain rfl)
  · exact .refl s

/-! ## The SoC's transactions -/

theorem dropViolation_regular (command : FlashCommand) (s : State) : Regular s (dropViolation command s) :=
  .after (fire_regular _ _ _) (.after (raise_regular _ _)
    ⟨rfl, rfl, rfl, rfl, rfl, id, fun l => { l with violations := saturating_le _ _ }, fun l => { l with }, fun _ l => { l with }⟩)

/-- A change of the Flash Port that leaves its violation counter. -/
theorem withPort_regular {p : FlashPort} {s : State} (h : p.violations = s.port.violations) : Regular s { s with port := p } :=
  .plain (by simp only [State.core, h, State.measureJobs])

theorem forward_violations (p : FlashPort) : p.forward.violations = p.violations := by
  unfold FlashPort.forward
  split <;> rfl

theorem csRise_violations (ready : Bool) (p : FlashPort) : (p.csRise ready).violations = p.violations := by
  unfold FlashPort.csRise
  split <;> rfl

theorem socCommand_regular (command : FlashCommand) (s : State) : Regular s (socCommand command s) := by
  unfold socCommand
  split
  · exact dropViolation_regular _ _
  · split
    · exact withPort_regular rfl
    · exact withPort_regular (forward_violations _)

/-! ## The store's start -/

theorem StoreUnit.take_begun (u : StoreUnit) : u.take.making.toList ++ u.take.waiting = u.making.toList ++ u.waiting := by
  unfold StoreUnit.take
  split
  · next making waiting => simp [making, waiting]
  · rfl

theorem startWrite_regular (s : State) : Regular s (startWrite s) :=
  have begun : (startWrite s).begun = s.begun := s.store.take_begun
  ⟨rfl, rfl, rfl, rfl, rfl, id, fun l => { l with }, fun l => { l with }, fun _ l => { l with
    trial := by rw [begun]; exact l.trial
    writes := by rw [begun]; exact l.writes }⟩

/-! ## Every command -/

theorem event_carries {condition : Bool} {effect : State → State} {s t : State} (h : event condition effect s = .next t)
    (he : condition = true → Carries s (effect s)) : Carries s t := by
  unfold event at h
  split at h
  · next taken =>
    obtain rfl := Host.Outcome.next.inj h
    exact .trans (he (Bool.and_eq_true_iff.1 taken).2) (settle_regular _).carries
  · obtain rfl := Host.Outcome.next.inj h
    exact .refl s

theorem event_regular {condition : Bool} {effect : State → State} {s t : State} (h : event condition effect s = .next t)
    (he : Regular s (effect s)) : Carries s t := event_carries h fun _ => he.carries

theorem request_carries {serve : Nat → Bytes → State → State} (hv : ∀ i p s, Regular s (serve i p s)) {code : Req} {identity : Byte}
    {payload : Bytes} {s t : State} (h : event true (request code serve identity payload) s = .next t) : Carries s t :=
  event_regular h (request_regular hv code identity payload s)

/-- A state before RUNNING in which the SoC runs (R64, R65). -/
theorem held_of_deadline {s : State} {state : GateState} {due : Bool} (h : (s.gate.state == state && due) = true)
    (runs : state = .released ∨ state = .attached) : s.held = false := by
  obtain ⟨is, _⟩ := Bool.and_eq_true_iff.1 h
  rcases runs with rfl | rfl <;> simp [State.held, beq_iff_eq.1 is]

theorem exec_carries {c : Instr} {s t : State} (h : exec c s = .next t) : Carries s t := by
  cases c with
  | powerOn landed =>
    obtain rfl := Host.Outcome.next.inj h
    exact .trans (volatileReset_carries (fun l => l.keptAfterLoss landed) _ _ _) (powerOnFrom_regular _ _ _ _).carries
  | powerLoss landed =>
    obtain rfl := Host.Outcome.next.inj h
    split
    · exact .trans (volatileReset_carries (fun l => l.keptAfterLoss landed) _ _ _) (unpowered_carries _ s)
    · exact .refl s
  | storeWriteComplete => exact event_carries h fun _ => completeNow_carries s
  | storeWriteFailed => exact event_carries h fun _ => failNow_carries s
  | storeWriteStart => exact event_regular h (startWrite_regular s)
  | bankSelection => exact event_regular h (selectNow_regular s)
  | attachDeadlineExpiry =>
    exact event_carries h fun due => (failOrReboot_regular s (held_of_deadline due (.inl rfl))).carries
  | bootCompleteDeadlineExpiry =>
    exact event_carries h fun due => (failOrReboot_regular s (held_of_deadline due (.inr rfl))).carries
  | holdDwellExpiry =>
    exact event_carries h fun due => (startOfMeasurement_settled _ _ fun l =>
      l.dwelling (reached_some (Bool.and_eq_true_iff.1 due).2)).carries
  | socRestart => exact event_carries h fun runs => (socRestarted_regular s runs).carries
  | rebootTimerExpiry =>
    exact event_carries h fun due => (startOfMeasurement_settled _ _ fun l =>
      l.running (l.reboot (Bool.and_eq_true_iff.1 (Bool.and_eq_true_iff.1 due).1).1)).carries
  | silenceWatchExpiry => exact event_regular h (silenceExpired_regular s)
  | scanTimerExpiry => exact event_regular h (scanExpiry_regular s)
  | deBlockAbsorbed => exact event_carries h fun _ => absorbNow_carries s
  | frBurstStart => exact event_regular h (startBurst_regular s)
  | frBurstComplete bytes => exact event_regular h (burstRead_regular _ _)
  | seOperationComplete => exact event_regular h (engineDone_regular s)
  | keyMaterialGenerated => exact event_regular h (materialGenerated_regular s)
  | verificationDeadlineExpiry => exact event_regular h (reject_regular _ _)
  | socFlashCommand command => exact event_regular h (socCommand_regular _ _)
  | socFlashForward => exact event_regular h (withPort_regular (forward_violations _))
  | socFlashCsRise ready => exact event_regular h (withPort_regular (csRise_violations _ _))
  | linkTransactionIgnored received => exact event_regular h (ignore_regular _ _ _)
  | badFrame frame => exact event_regular h (frameArrives_regular (receiveBad_regular frame) _ _)
  | frameTimeout received elapsed => exact event_regular h (timeOut_regular _ _)
  | overrun frame => exact event_regular h (overrunFrame_regular _ _ _)
  | poll clocked => exact event_regular h (poll_regular _ _ _)
  | btnLevelChange pressed =>
    obtain rfl := Host.Outcome.next.inj h
    split
    · exact .refl s
    · split
      · exact Regular.carries (.after (settle_regular _) (.plain rfl))
      · exact Regular.carries (.plain rfl)
  | debouncedPress => exact event_regular h (.plain rfl)
  | debouncedRelease => exact event_regular h (debouncedRelease_regular s)
  | buttonHold => exact event_regular h (buttonHeld_regular s)
  | presenceWindowTimeout => exact event_regular h (closeWindow_regular s)
  | patternPeriodEnd source => exact event_regular h (.plain rfl)
  | onTimeEnd => exact event_regular h (.refl s)
  | ownerResetUpdate => exact event_regular h (.after (beginReset_regular _ _) (.plain rfl))
  | decayStep record => exact event_regular h (beginDecay_regular _ _)
  | clearAttention => exact request_carries serveClearAttention_regular h
  | setAlertMask => exact request_carries serveSetAlertMask_regular h
  | setParameter => exact request_carries serveSetParameter_regular h
  | keyGenerate => exact request_carries serveKeyGenerate_regular h
  | keyImport => exact request_carries serveKeyImport_regular h
  | keySign => exact request_carries serveKeySign_regular h
  | keyDerive => exact request_carries serveKeyDerive_regular h
  | keyRestrict => exact request_carries serveKeyRestrict_regular h
  | keyRetire => exact request_carries serveKeyRetire_regular h
  | keyErase => exact request_carries serveKeyErase_regular h
  | blobWrite => exact request_carries serveBlobWrite_regular h
  | extendDigest => exact request_carries serveExtendDigest_regular h
  | extendData => exact request_carries serveExtendData_regular h
  | advanceStage => exact request_carries serveAdvanceStage_regular h
  | requesterWrite => exact request_carries serveRequesterWrite_regular h
  | makeStatement => exact request_carries serveMakeStatement_regular h
  | verifyStaged => exact request_carries serveVerifyStaged_regular h
  | abortImage => exact request_carries serveAbortImage_regular h
  | armTrial => exact request_carries serveArmTrial_regular h
  | confirmImage => exact request_carries serveConfirmImage_regular h
  | rebootRouter => exact request_carries serveRebootRouter_regular h
  | vaultClaim => exact request_carries serveVaultClaim_regular h
  | credEnroll => exact request_carries serveCredEnroll_regular h
  | credCheck => exact request_carries serveCredCheck_regular h
  | credChange => exact request_carries serveCredChange_regular h
  | credRemove => exact request_carries serveCredRemove_regular h
  | ownerReset => exact request_carries serveOwnerReset_regular h
  | setIndicatorPattern => exact request_carries serveSetIndicator_regular h
  | setIndicatorClear => exact request_carries serveSetIndicator_regular h
  | reactionWrite => exact request_carries serveReactionWrite_regular h
  | patternWrite => exact request_carries servePatternWrite_regular h
  | provisionSlotGenerate => exact request_carries serveProvisionSlot_regular h
  | provisionSlotPublic => exact request_carries serveProvisionSlot_regular h
  | provisionSlotBlob => exact request_carries serveProvisionSlot_regular h
  | provisionSlotErase => exact request_carries serveProvisionSlot_regular h
  | provisionCredential => exact request_carries serveProvisionCredential_regular h
  | provisionLayout => exact request_carries serveProvisionLayout_regular h
  | provisionGolden => exact request_carries serveProvisionGolden_regular h
  | lockFactory => exact request_carries serveLockFactory_regular h
  | _ => exact request_carries (fun _ _ _ => answered_regular _ _) h

/-! ## Every step -/

/-- The queue is in none of the laws. -/
theorem withPending_carries (pending : List Instr) (s : State) : Carries s { s with pending := pending } :=
  ⟨id, fun l => { l with }, fun l => { l with }, fun _ l => { l with }⟩

/-- A millisecond changes the uptime alone, a count of 48 bits (R181). -/
theorem idle_carries (s : State) : Carries s (idle s) := by
  unfold idle
  split
  · exact ⟨id, fun l => { l with uptime := Nat.mod_lt _ (by decide) }, fun l => { l with }, fun _ l => { l with }⟩
  · exact .refl s

theorem step_carries {s t : State} (h : step s = .next t) : Carries s t := by
  unfold step at h
  split at h
  · exact .trans (withPending_carries _ s) (exec_carries h)
  · unfold idleStep at h
    split at h
    · exact exec_carries h
    · obtain rfl := Host.Outcome.next.inj h
      exact idle_carries s

/-! ## What the laws say of the log (R30, R34, R36) -/

theorem Stage.number_le (stage : Stage) : stage.number ≤ 3 := by cases stage <;> decide

/-- The entries that requests have made are among the first 36 (R36). -/
theorem Ism.Lawful.requests_le {m : Ism} (h : m.Lawful) : m.entriesOf [.request] ≤ 36 := by
  have beyond : (m.log.drop 36).countP (fun e => [LogKind.request].contains e.kind) = 0 := by
    refine List.countP_eq_zero.2 fun e he made => ?_
    obtain ⟨i, hi⟩ := List.mem_iff_getElem?.1 he
    rw [List.getElem?_drop] at hi
    have := h.requests _ e hi (by simpa using made)
    omega
  have first : (m.log.take 36).countP (fun e => [LogKind.request].contains e.kind) ≤ 36 :=
    Nat.le_trans List.countP_le_length (List.length_take_le _ _)
  rw [Ism.entriesOf, ← List.take_append_drop 36 m.log, List.countP_append, beyond]
  exact first

/-- Settles O21: every step carries the laws on, and the log is counted by the kinds of its entries. -/
theorem stepKeepsTheLawOfChainsAndLog : Obligations.StepKeepsTheLawOfChainsAndLog := by
  refine ⟨fun s t l h => (step_carries h).measured l, fun s t j l h => (step_carries h).bounded j l, fun s lawful bounded => ?_⟩
  have requests := lawful.requests_le
  have marks : s.ism.entriesOf [.stageMark] ≤ 3 := Nat.le_trans lawful.stageMarks (Stage.number_le _)
  have measurements : s.ism.measurements ≤ 8 := Nat.le_trans (Nat.le_add_right _ _) bounded.total
  exact ⟨by rw [Ism.log_length]; omega, requests, measurements, marks⟩

end Sys2Proof.Machine
end

section
/-! SUPPORT. Proofs for chapter 2, part 3: the state after reset keeps every law (R4, R27, R32, R65, R144, R176). -/

namespace Sys2Proof.Machine

/-! ## The factory records (R25, R184) -/

theorem factoryRecords_slot (i : Nat) : factoryRecords.slot i = none := by
  simp only [Records.slot, factoryRecords, Vector.getElem?_replicate]
  split <;> rfl

theorem factoryRecords_cred (i : Nat) : factoryRecords.cred i = none := by
  simp only [Records.cred, factoryRecords, Vector.getElem?_replicate]
  split <;> rfl

theorem factoryRecords_ownerLaw : factoryRecords.OwnerLaw := fun _ =>
  ⟨fun i _ found => absurd found (by rw [factoryRecords_slot i]; exact nofun),
    fun i _ found => absurd found (by rw [factoryRecords_cred i]; exact nofun)⟩

theorem factoryRecords_labelLaw : factoryRecords.LabelLaw :=
  ⟨fun i _ _ _ found => absurd found (by rw [factoryRecords_slot i]; exact nofun),
    fun i _ _ _ found => absurd found (by rw [factoryRecords_cred i]; exact nofun)⟩

/-- Identity 0, of the loader, holds ADMIN at the factory (R25). -/
theorem factoryRecords_adminLaw : factoryRecords.AdminLaw := by
  refine ⟨fun q found => ?_, 0, ⟨true, .loader, 1⟩, rfl, rfl, by decide⟩
  obtain rfl : (⟨true, .loader, 1⟩ : Requester) = q := Option.some.inj found
  exact ⟨rfl, rfl⟩

theorem factoryRecords_fewRegions : factoryRecords.FewRegions :=
  ⟨Nat.zero_le 8, Nat.zero_le 8, fun _ candidate => absurd candidate (Option.not_mem_none _)⟩

/-! ## Reset (R190) -/

/-- Reset is the end of a power-on of a part as it leaves Arkhelo (log entry 7). -/
theorem reset_powerOnFrom : State.reset = powerOnFrom factoryRecords false 0 [] := rfl

/-- Settles O19: reset is a power-on from the factory records, which keep the laws of the records. -/
theorem resetKeepsTheLaws : Obligations.ResetKeepsTheLaws := by
  have started : Carries (State.volatileReset factoryRecords false 0 []) State.reset := by
    rw [reset_powerOnFrom]
    exact (powerOnFrom_regular _ _ _ _).carries
  have jobs := volatileReset_jobs factoryRecords false 0 []
  exact
    { pins := fun _ => ⟨rfl, rfl, rfl⟩
      measured := started.measured Ism.Lawful.start
      owner := factoryRecords_ownerLaw
      labels := factoryRecords_labelLaw
      admin := factoryRecords_adminLaw
      inRange := started.inRange (volatileReset_inRange _ _ _ _)
      jobs := started.jobs jobs
      bounded := started.bounded jobs (volatileReset_bounded _ _ _ _ factoryRecords_fewRegions) }

end Sys2Proof.Machine
end

section
/-! SUPPORT. Proofs for chapter 2, part 4: the requests that extend a chain, that read the chains and the log, and that advance the stage (R30,
R31, R33 to R38, R40, R41, R77, R78). -/

namespace Sys2Proof.Machine

/-! ## The chains under an append (R35) -/

theorem Ism.append_log (m : Ism) (c : Nat) (kind : LogKind) (e : Bytes) (source : Option Nat) (tag : Bytes) :
    (m.append c kind e source tag).log = m.log ++ [⟨m.log.length, c, kind, e, m.stage, source, tag⟩] := rfl

theorem Ism.append_log_length (m : Ism) (c : Nat) (kind : LogKind) (e : Bytes) (source : Option Nat) (tag : Bytes) :
    (m.append c kind e source tag).log.length = m.log.length + 1 := by simp [Ism.append_log]

theorem Ism.append_stage (m : Ism) (c : Nat) (kind : LogKind) (e : Bytes) (source : Option Nat) (tag : Bytes) :
    (m.append c kind e source tag).stage = m.stage := rfl

/-- The chain of an append is extended by its event digest (R32). -/
theorem Ism.append_chain {c : Nat} (h : c < 8) (m : Ism) (kind : LogKind) (e : Bytes) (source : Option Nat) (tag : Bytes) :
    (m.append c kind e source tag).chain c = sha256 (m.chain c ++ e) := by
  rw [Ism.chain_append _ _ _ _ _ _ _ h, if_pos rfl]
  rfl

/-- The other chains stand. -/
theorem Ism.append_chain_other {c d : Nat} (h : d ≠ c) (m : Ism) (kind : LogKind) (e : Bytes) (source : Option Nat) (tag : Bytes) :
    (m.append c kind e source tag).chain d = m.chain d := by
  simp only [Ism.append, Ism.chain, Vector.getElem?_setIfInBounds, if_neg h.symm]

/-! ## A request that is answered with a change of its own -/

/-- The reply of a request leaves what no request changes. -/
theorem RequestFrame.answered {s v : State} (h : RequestFrame s v) (n : Nat) (status : Status) (bytes : Bytes) :
    RequestFrame s (sendsBusy n (answer status bytes v)).settle :=
  { h with }

/-- The reply stands after the request's event. -/
theorem answers_sent (n : Nat) (status : Status) (bytes : Bytes) (v : State) :
    (sendsBusy n (answer status bytes v)).settle.Answers v.asker status bytes := ⟨rfl, rfl, rfl⟩

/-! ## Extensions (R33, R36, R37, R38) -/

/-- The payload of an extension: its chain, its tag and what follows (R37). -/
theorem readExtend_fields {chain n : Byte} {tag : Bytes} (rest : Bytes) (hc : chain.toNat ≤ 7) (ht : tag.length ≤ 8)
    (hn : n.toNat = tag.length) : readExtend (chain :: n :: (tag ++ rest)) = some (chain.toNat, tag, rest) := by
  have counted : takeCounted (n :: (tag ++ rest)) = some (tag, rest) := by
    rw [← byteOf_toNat n, hn]
    exact takeCounted_byteOf tag rest (by omega)
  simp [readExtend, counted, hc, ht]

/-- Checks 2 to 4 of a request extend, in their order, on a chain that there is (R33, R36, R37). -/
theorem checkExtend_eq {chain : Nat} (h : chain ≤ 7) (m : Ism) :
    checkExtend chain m =
      if chain < 2 then .error .chainReserved
      else if min (chain - 2) 3 < m.stage.number then .error .stageClosed
      else if 36 ≤ m.log.length then .error .logFull
      else .ok () := by
  by_cases reserved : chain < 2
  · rw [if_pos reserved]
    have : chain = 0 ∨ chain = 1 := by omega
    rcases this with rfl | rfl <;> exact checkExtend_reserved rfl m
  · rw [if_neg reserved]
    exact checkExtend_open (by omega) h m

/-- EXTEND DIGEST makes its checks and extends (R37). -/
theorem serveExtendDigest_checks {chain n : Byte} {tag digest : Bytes} (hc : chain.toNat ≤ 7) (ht : tag.length ≤ 8)
    (hn : n.toNat = tag.length) (hd : digest.length = 32) (identity : Nat) (u : State) :
    serveExtendDigest identity (chain :: n :: (tag ++ digest)) u =
      served (do
        checkExtend chain.toNat u.ism
        pure (answer .ok (extendReply chain.toNat [] (appendRequest chain.toNat identity tag digest u))
          (appendRequest chain.toNat identity tag digest u))) u := by
  simp only [serveExtendDigest, readExtend_fields digest hc ht hn, layout_some, Checked.bind_ok, hd, beq_self_eq_true, check_true]

/-- EXTEND DATA makes its checks and digests its data (R38). -/
theorem serveExtendData_begins {chain n : Byte} {tag data : Bytes} (h2 : 2 ≤ chain.toNat) (hc : chain.toNat ≤ 7) (ht : tag.length ≤ 8)
    (hn : n.toNat = tag.length) (hd : data ≠ []) (identity : Nat) {u : State} (hs : u.ism.stage.number ≤ min (chain.toNat - 2) 3)
    (hl : u.ism.log.length < 36) :
    serveExtendData identity (chain :: n :: (tag ++ data)) u = beginDigest none data (.extendDigest chain.toNat tag) u := by
  have some_data : (!data.isEmpty) = true := by simpa using hd
  have opened : checkExtend chain.toNat u.ism = .ok () := by
    rw [checkExtend_open h2 hc, if_neg (Nat.not_lt.2 hs), if_neg (Nat.not_le.2 hl)]
  simp only [serveExtendData, readExtend_fields data hc ht hn, layout_some, Checked.bind_ok, some_data, check_true, opened,
    Checked.pure_eq, served_ok]

/-- The reply to an extension carries the place of its entry and the chain as extended (R37). -/
theorem extendReply_appendRequest (chain identity : Nat) (tag digest computed : Bytes) (u : State) :
    extendReply chain computed (appendRequest chain identity tag digest u) =
      byteOf u.ism.log.length ::
        (computed ++ (appendRequest chain identity tag digest u).ism.chain chain ++ [byteOf (u.ism.log.length + 1)]) := by
  simp only [extendReply, appendRequest, Ism.append_log_length, Nat.add_sub_cancel]

/-- A heard EXTEND DIGEST whose checks hold appends its entry and extends its chain in one event (R35, R37). -/
theorem extendDigest_appends {s : State} {identity chain n : Byte} {tag digest : Bytes} (hc : chain.toNat ≤ 7) (ht : tag.length ≤ 8)
    (hn : n.toNat = tag.length) (hd : digest.length = 32) (h : s.Hears identity (chain :: n :: (tag ++ digest)))
    (opened : checkExtend chain.toNat s.ism = .ok ()) :
    ∃ t, exec (.extendDigest identity (chain :: n :: (tag ++ digest))) s = .next t ∧
      t.ism = s.ism.append chain.toNat .request digest (some identity.toNat) tag ∧
      t.Answers identity .ok
        (byteOf s.ism.log.length :: (t.ism.chain chain.toNat ++ [byteOf (s.ism.log.length + 1)])) ∧
      RequestFrame s t ∧ t.gate = s.admittedGate ∧ t.engine = s.engine ∧ t.store = s.store ∧ t.biu = s.biu ∧
      t.link.flags = s.link.flags ∧ t.link.mask = s.link.mask := by
  obtain ⟨u, hu, runs⟩ := request_serves (code := .extendDigest) (serve := serveExtendDigest) h
    (checkRight_free nofun rfl rfl) rfl
  refine ⟨_, runs, ?_⟩
  rw [serveExtendDigest_checks hc ht hn hd, hu.ism, opened, Checked.bind_ok, Checked.pure_eq, served_ok]
  have appended : (appendRequest chain.toNat identity.toNat tag digest u).ism =
      s.ism.append chain.toNat .request digest (some identity.toNat) tag := by rw [← hu.ism]; rfl
  have asks : (appendRequest chain.toNat identity.toNat tag digest u).asker = identity := hu.asker
  have replies := answers_sent ((chain :: n :: (tag ++ digest)).length + 7) .ok
    (extendReply chain.toNat [] (appendRequest chain.toNat identity.toNat tag digest u))
    (appendRequest chain.toNat identity.toNat tag digest u)
  rw [asks] at replies
  rw [extendReply_appendRequest, hu.ism, List.nil_append] at replies ⊢
  have framed : RequestFrame s (appendRequest chain.toNat identity.toNat tag digest u) := { hu.toRequestFrame with }
  exact ⟨appended, replies, framed.answered _ _ _, hu.gate, hu.engine, hu.store, hu.biu, hu.flags, hu.mask⟩

/-- A heard EXTEND DIGEST that a check fails is refused, and has changed nothing (R37). -/
theorem extendDigest_refused {s : State} {identity chain n : Byte} {tag digest : Bytes} {status : Status} (hc : chain.toNat ≤ 7)
    (ht : tag.length ≤ 8) (hn : n.toNat = tag.length) (hd : digest.length = 32)
    (h : s.Hears identity (chain :: n :: (tag ++ digest))) (fails : checkExtend chain.toNat s.ism = .error status) :
    ∃ t, exec (.extendDigest identity (chain :: n :: (tag ++ digest))) s = .next t ∧ Replies s identity status [] t :=
  request_refused h serveExtendDigest (checkRight_free nofun rfl rfl) rfl fun u hu => by
    rw [serveExtendDigest_checks hc ht hn hd, hu.ism, fails, Checked.bind_error, served_error]

/-- Settles O9: the checks of an extension in their order, the append, and the data of EXTEND DATA that is digested first. -/
theorem extensionsAppendAndExtendTogether : Obligations.ExtensionsAppendAndExtendTogether := by
  refine ⟨fun s identity chain n tag digest hc ht hn hd h => ?_, fun s identity chain n tag data h2 hc ht hn hd h hs hl => ?_⟩
  · have checks := checkExtend_eq hc s.ism
    by_cases reserved : chain.toNat < 2
    · simp only [if_pos reserved] at checks ⊢
      exact extendDigest_refused hc ht hn hd h checks
    by_cases closed : min (chain.toNat - 2) 3 < s.ism.stage.number
    · simp only [if_neg reserved, if_pos closed] at checks ⊢
      exact extendDigest_refused hc ht hn hd h checks
    by_cases full : 36 ≤ s.ism.log.length
    · simp only [if_neg reserved, if_neg closed, if_pos full] at checks ⊢
      exact extendDigest_refused hc ht hn hd h checks
    simp only [if_neg reserved, if_neg closed, if_neg full] at checks ⊢
    obtain ⟨t, runs, ism, rest⟩ := extendDigest_appends hc ht hn hd h checks
    refine ⟨t, runs, ?_, ?_, fun c other => ?_, ?_, rest⟩
    · rw [ism, Ism.append_log]
    · rw [ism, Ism.append_chain (Nat.lt_succ_of_le hc)]
    · rw [ism, Ism.append_chain_other other]
    · rw [ism, Ism.append_stage]
  · exact request_digests h (checkRight_free nofun rfl rfl) rfl fun u hu =>
      serveExtendData_begins h2 hc ht hn hd _ (by rw [hu.ism]; exact hs) (by rw [hu.ism]; exact hl)

/-! ## READ CHAINS and READ LOG (R40, R41) -/

theorem serveReadChains_reads {set : Byte} (h : set ≠ 0) (identity : Nat) (u : State) :
    serveReadChains identity [set] u =
      answer .ok ([byteOf u.ism.stage.number, byteOf u.ism.log.length, set] ++
        ((List.range 8).filter fun c => set.getLsbD c).flatMap u.ism.chain) u := by
  have named : (set != 0) = true := bne_iff_ne.2 h
  simp only [serveReadChains, readByte_one, layout_some, Checked.bind_ok, named, check_true, Checked.pure_eq, answered_ok]
  rfl

theorem serveReadChains_empty (identity : Nat) (u : State) : serveReadChains identity [0] u = refuse .badArgument u := rfl

/-- READ LOG reads a start and a count, and answers from a start that is not beyond the end (R41). -/
theorem serveReadLog_checks (start count : Byte) (identity : Nat) (u : State) :
    serveReadLog identity [start, count] u =
      answered (do
        check (decide (start.toNat ≤ u.ism.log.length)) .badArgument
        pure ([byteOf u.ism.log.length, byteOf (u.ism.entriesFrom start.toNat count.toNat).length] ++
          (u.ism.entriesFrom start.toNat count.toNat).flatMap LogEntry.bytes)) u := by
  simp only [serveReadLog, takeNumber_one, layout_some, Checked.bind_ok, readByte_one]

theorem serveReadLog_reads {start : Byte} {u : State} (h : start.toNat ≤ u.ism.log.length) (count : Byte) (identity : Nat) :
    serveReadLog identity [start, count] u =
      answer .ok ([byteOf u.ism.log.length, byteOf (u.ism.entriesFrom start.toNat count.toNat).length] ++
        (u.ism.entriesFrom start.toNat count.toNat).flatMap LogEntry.bytes) u := by
  rw [serveReadLog_checks, decide_eq_true h]
  rfl

theorem serveReadLog_beyond {start : Byte} {u : State} (h : u.ism.log.length < start.toNat) (count : Byte) (identity : Nat) :
    serveReadLog identity [start, count] u = refuse .badArgument u := by
  rw [serveReadLog_checks, decide_eq_false (Nat.not_le.2 h)]
  rfl

/-- Settles O10: each service by its checks, and the reply that changes nothing. -/
theorem readChainsAndLogAnswer : Obligations.ReadChainsAndLogAnswer := by
  refine ⟨fun s identity set h named => ?_, fun s identity start count h within => ?_, fun s identity h => ?_,
    fun s identity start count h beyond => ?_⟩
  · exact request_answered h (checkRight_free nofun rfl rfl) rfl fun u hu => by rw [serveReadChains_reads named, hu.ism]
  · obtain ⟨t, runs, replies⟩ := request_answered (serve := serveReadLog) (code := .readLog) h (checkRight_free nofun rfl rfl) rfl
      fun u hu => by rw [serveReadLog_reads (by rw [hu.ism]; exact within), hu.ism]
    exact ⟨t, _, runs, rfl, replies⟩
  · exact request_refused h serveReadChains (checkRight_free nofun rfl rfl) rfl fun u _ => serveReadChains_empty _ u
  · exact request_refused h serveReadLog (checkRight_free nofun rfl rfl) rfl fun u hu =>
      serveReadLog_beyond (by rw [hu.ism]; exact beyond) count _

/-! ## ADVANCE STAGE (R30, R31, R78) -/

/-- ADVANCE STAGE tests that its target is later than the stage, and advances (R30). -/
theorem serveAdvanceStage_checks {b : Byte} {target : Stage} (h : Stage.ofNumber b.toNat = some target) (identity : Nat) (u : State) :
    serveAdvanceStage identity [b] u =
      served (do
        check (decide (u.ism.stage.number < target.number)) .wrongState
        pure (answer .ok ([byteOf target.number, byteOf ((advanceTo target u).ism.log.length - 1)] ++ (advanceTo target u).ism.chain 1)
          (advanceTo target u))) u := by
  have read : readStage [b] = some target := h
  simp only [serveAdvanceStage, read, layout_some, Checked.bind_ok]

/-- The Boot Gate's step of an advance changes nothing but the gate (R78). -/
theorem stageReached_gate (stage : Stage) (s : State) : stageReached stage s = { s with gate := (stageReached stage s).gate } := by
  unfold stageReached
  split <;> rfl

/-- An advance changes the chains and the log, and the Boot Gate (R30, R78). -/
theorem advanceTo_eq (target : Stage) (s : State) :
    advanceTo target s = { s with ism := s.ism.advance target, gate := (advanceTo target s).gate } := by
  rw [advanceTo, stageReached_gate]

/-- Where the SoC runs, an admitted frame finds the Boot Gate in RUNNING or attaches the SoC (R77). -/
theorem admittedGate_state {s : State} (h : s.held = false) :
    s.admittedGate.state = if s.gate.state = .running then .running else .attached := by
  simp only [State.held] at h
  unfold State.admittedGate
  cases e : s.gate.state <;> simp_all

theorem admittedGate_counts (s : State) :
    s.admittedGate.releaseCount = s.gate.releaseCount ∧ s.admittedGate.failures = s.gate.failures := by
  unfold State.admittedGate
  split <;> exact ⟨rfl, rfl⟩

/-- The Boot Gate after an advance in a state that serves a request: SYSTEM and SERVICES take it from ATTACHED to RUNNING (R78). -/
theorem advanceTo_gate {s u : State} {code : Req} {identity : Byte} {payload : Bytes} (hu : Serving s code identity payload u)
    (target : Stage) :
    (advanceTo target u).gate =
      if s.admittedGate.state = .attached ∧ 2 ≤ target.number then
        { s.admittedGate with
          state := .running, complete := none, failures := 0, silence := s.silenceDeadline, scanTimer := s.startScanTimer }
      else s.admittedGate := by
  have silence : u.silenceDeadline = s.silenceDeadline := by
    simp only [State.silenceDeadline, State.inSeconds, State.inMs, hu.kept, hu.uptime]
  have scan : u.startScanTimer = s.startScanTimer := by
    simp only [State.startScanTimer, hu.kept, hu.uptime, hu.gate, (admittedGate_boot s).2.2.1]
  simp only [advanceTo, stageReached]
  rw [← silence, ← scan, ← hu.gate]
  split <;> rfl

/-- A heard ADVANCE STAGE to a later stage raises the stage with its mark, and is answered (R30, R31). -/
theorem advanceStage_advances {s : State} {identity b : Byte} {target : Stage} (h : s.Hears identity [b])
    (read : Stage.ofNumber b.toNat = some target) (later : s.ism.stage.number < target.number) :
    ∃ t, exec (.advanceStage identity [b]) s = .next t ∧ t.ism = s.ism.advance target ∧
      t.Answers identity .ok ([byteOf target.number, byteOf s.ism.log.length] ++ t.ism.chain 1) ∧
      t.gate = (if s.admittedGate.state = .attached ∧ 2 ≤ target.number then
        { s.admittedGate with
          state := .running, complete := none, failures := 0, silence := s.silenceDeadline, scanTimer := s.startScanTimer }
      else s.admittedGate) ∧
      RequestFrame s t ∧ t.engine = s.engine ∧ t.store = s.store ∧ t.biu = s.biu ∧ t.link.flags = s.link.flags ∧
      t.link.mask = s.link.mask := by
  obtain ⟨u, hu, runs⟩ := request_serves (code := .advanceStage) (serve := serveAdvanceStage) h (checkRight_free nofun rfl rfl) rfl
  refine ⟨_, runs, ?_⟩
  have checked : decide (u.ism.stage.number < target.number) = true := by rw [hu.ism]; exact decide_eq_true later
  have gate := advanceTo_gate hu target
  rw [serveAdvanceStage_checks read, checked, check_true, Checked.bind_ok, Checked.pure_eq, served_ok]
  have advanced : (advanceTo target u).ism = s.ism.advance target := by rw [advanceTo_eq, hu.ism]
  have asks : (advanceTo target u).asker = identity := by rw [advanceTo_eq]; exact hu.asker
  have framed : RequestFrame s (advanceTo target u) := by rw [advanceTo_eq]; exact { hu.toRequestFrame with }
  have place : (advanceTo target u).ism.log.length - 1 = s.ism.log.length := by
    rw [advanceTo_eq, hu.ism, Ism.advance, Ism.append_log_length, Nat.add_sub_cancel]
  have rest : (advanceTo target u).engine = s.engine ∧ (advanceTo target u).store = s.store ∧ (advanceTo target u).biu = s.biu ∧
      (advanceTo target u).link.flags = s.link.flags ∧ (advanceTo target u).link.mask = s.link.mask := by
    rw [advanceTo_eq]
    exact ⟨hu.engine, hu.store, hu.biu, hu.flags, hu.mask⟩
  rw [place]
  have replies := answers_sent ([b].length + 7) .ok
    ([byteOf target.number, byteOf s.ism.log.length] ++ (advanceTo target u).ism.chain 1) (advanceTo target u)
  rw [asks] at replies
  exact ⟨advanced, replies, gate, framed.answered _ _ _, rest⟩

/-- Settles O11: an advance to a later stage with its mark and the Boot Gate's step, and the refusal of another. -/
theorem advanceStageRaisesTheStage : Obligations.AdvanceStageRaisesTheStage := by
  intro s identity b target h read
  by_cases earlier : target.number ≤ s.ism.stage.number
  · simp only [if_pos earlier]
    exact request_refused h serveAdvanceStage (checkRight_free nofun rfl rfl) rfl fun u hu => by
      rw [serveAdvanceStage_checks read, hu.ism, decide_eq_false (Nat.not_lt.2 earlier), check_false, Checked.bind_error, served_error]
  simp only [if_neg earlier]
  obtain ⟨t, runs, ism, replies, gate, rest⟩ := advanceStage_advances h read (Nat.lt_of_not_le earlier)
  refine ⟨t, runs, by rw [ism]; rfl, ⟨_, by rw [ism]; rfl, rfl, rfl, rfl, rfl, rfl, rfl, rfl, ?_⟩, fun c other => ?_, replies, ?_, rest⟩
  · rw [ism]
    exact Ism.append_chain (by decide) _ _ _ _ _
  · rw [ism, Ism.advance, Ism.append_chain_other other]
    rfl
  · rw [gate, admittedGate_state h.running]
    by_cases running : s.gate.state = .running
    · simp [running]
    · by_cases reached : 2 ≤ target.number
      · simp [running, reached, (admittedGate_counts s).1]
      · simp [reached]

end Sys2Proof.Machine
end

section
/-! SUPPORT. Proofs for chapter 2, part 5: a finished digest of the LINK context goes on to its request, or its use is refused (R5, R15, R16, R38,
R118 to R120, R124, R132, R140, R186). -/

namespace Sys2Proof.Machine

/-- What the engine takes next leaves the reply as it stands. -/
theorem State.Answers.goesOn {u : State} {identity : Byte} {status : Status} {bytes : Bytes} (h : u.Answers identity status bytes) :
    u.goesOn.Answers identity status bytes := ⟨h.ready, h.served, h.reply⟩

/-- A reply to the request in service, as the engine goes on. -/
theorem answers_goesOn (status : Status) (bytes : Bytes) (u : State) : (answer status bytes u).goesOn.Answers u.asker status bytes :=
  State.Answers.goesOn ⟨rfl, rfl, rfl⟩

theorem asker_of_request {u : State} {r : Request} (h : u.link.request = some r) : u.asker = byteOf r.identity := by
  simp only [State.asker, h]

/-! ## EXTEND DATA (R38) -/

/-- The data of EXTEND DATA has been digested: its checks are made again, and its entry is appended for the request's identity (R38). -/
theorem linkDigestDone_extend {u : State} {chain : Nat} {tag : Bytes} {r : Request} (hv : u.link.service = .extendDigest chain tag)
    (hr : u.link.request = some r) (digest : Bytes) :
    linkDigestDone digest u =
      served (do
        checkExtend chain u.ism
        pure (answer .ok (extendReply chain digest (appendRequest chain r.identity tag digest u))
          (appendRequest chain r.identity tag digest u))) u := by
  rw [linkDigestDone, hv]
  simp only [extendDataDone, hr, Option.map_some, Option.getD_some]

theorem linkDigestDone_extend_refused {u : State} {chain : Nat} {tag : Bytes} {r : Request} {status : Status}
    (hv : u.link.service = .extendDigest chain tag) (hr : u.link.request = some r) (fails : checkExtend chain u.ism = .error status)
    (digest : Bytes) : linkDigestDone digest u = refuse status u := by
  rw [linkDigestDone_extend hv hr, fails, Checked.bind_error, served_error]

theorem linkDigestDone_extend_appends {u : State} {chain : Nat} {tag : Bytes} {r : Request}
    (hv : u.link.service = .extendDigest chain tag) (hr : u.link.request = some r) (opened : checkExtend chain u.ism = .ok ())
    (digest : Bytes) :
    linkDigestDone digest u =
      answer .ok (byteOf u.ism.log.length ::
          (digest ++ (appendRequest chain r.identity tag digest u).ism.chain chain ++ [byteOf (u.ism.log.length + 1)]))
        (appendRequest chain r.identity tag digest u) := by
  rw [linkDigestDone_extend hv hr, opened, Checked.bind_ok, Checked.pure_eq, served_ok, extendReply_appendRequest]

/-! ## Statements and credentials (R118, R132, R140, R186) -/

theorem linkDigestDone_statement {u : State} {p : Place} {k : KeySlot} {body : Bytes} (hv : u.link.service = .statementDigest p body)
    (hs : u.kept.slotAt p = some k) (ha : k.state = .active) (digest : Bytes) :
    linkDigestDone digest u =
      { u with
        engine := u.engine ++ [.sign p.index k.material.privateBytes digest], link := { u.link with service := .statementEngine p body } } := by
  rw [linkDigestDone, hv]
  exact placeSign_active hs ha digest _

/-- An enrolment whose label is free, with a record not present and the vault CLAIMED, passes its checks again (R132). -/
theorem checkEnrol_ok {u : State} {label : Bytes} (hl : u.kept.findCred label = none) (hf : u.kept.freeCred ≠ none)
    (hc : u.kept.vault.claimed = true) : checkEnrol label u = .ok () := by
  obtain ⟨i, free⟩ := Option.ne_none_iff_exists'.1 hf
  simp [checkEnrol, Records.credIndex, hl, free, Records.mayHold, hc]

theorem linkDigestDone_enrolling {u : State} {f : CredForm} (hv : u.link.service = .enrolling f)
    (passes : checkEnrol f.label u = .ok ()) (value : Bytes) :
    linkDigestDone value u = u.handOver (.credPut (f.record .owner value u.ism)) (.replyIndex f.label) := by
  rw [linkDigestDone, hv]
  simp only [writeEnrolled, passes, Checked.bind_ok, Checked.pure_eq, served_ok]

/-- A provisioned record has an index: that of the FACTORY record with its label, or the lowest that is not present (R186). -/
theorem credIndex_factory {r : Records} {label : Bytes} (h : (r.findCred label = none ∧ r.freeCred ≠ none) ∨
    ∃ i c, r.findCred label = some (i, c) ∧ c.isOwner = false) : ∃ i, r.credIndex label false = .ok i := by
  rcases h with ⟨hl, hf⟩ | ⟨i, c, hl, hc⟩
  · obtain ⟨i, free⟩ := Option.ne_none_iff_exists'.1 hf
    exact ⟨i, by simp [Records.credIndex, hl, free]⟩
  · exact ⟨i, by simp [Records.credIndex, hl, hc]⟩

theorem linkDigestDone_provisioning {u : State} {f : CredForm} {i : Nat} (hv : u.link.service = .provisioning f)
    (index : u.kept.credIndex f.label false = .ok i) (value : Bytes) :
    linkDigestDone value u = u.handOver (.credPut (f.record (.factory value false) value u.ism)) (.replyIndex f.label) := by
  rw [linkDigestDone, hv]
  simp only [writeProvisioned, index, Checked.bind_ok, Checked.pure_eq, served_ok]

theorem linkDigestDone_changing {u : State} {p : Place} {old : Bool} (hv : u.link.service = .changing p old) (value : Bytes) :
    linkDigestDone value u = u.handOver (.credValue p value true (!old)) (.reply []) := by
  rw [linkDigestDone, hv]
  rfl

/-! ## Uses of a slot that is gone (R5, R15, R16, R118 to R120, log entries 19, 38 and 53) -/

/-- A use of a place is refused: its slot has become EMPTY, or is found RETIRED. -/
def Records.RefusesUse (r : Records) (p : Place) (status : Status) : Prop :=
  (r.slotAt p = none ∧ status = .slotEmpty) ∨ ∃ k, r.slotAt p = some k ∧ k.state = .retired ∧ status = .wrongState

theorem countUse_refused {u : State} {p : Place} {status : Status} (h : u.kept.RefusesUse p status) (result : Bytes) (report : Bool) :
    countUse p result report u = refuse status u := by
  rcases h with ⟨gone, rfl⟩ | ⟨k, found, retired, rfl⟩
  · exact countUse_empty gone result report
  · exact countUse_retired found retired result report

theorem placeSign_refused {u : State} {p : Place} {status : Status} (h : u.kept.RefusesUse p status) (digest : Bytes)
    (service : Service) : placeSign p digest service u = refuse status u := by
  rcases h with ⟨gone, rfl⟩ | ⟨k, found, retired, rfl⟩
  · simp [placeSign, gone]
  · simp [placeSign, found, checkActive, retired, check]

theorem linkDigestDone_refused {u : State} {p : Place} {status : Status} (h : u.kept.RefusesUse p status)
    (hv : u.link.service = .signDigest p ∨ u.link.service = .deriveDigest p ∨ ∃ body, u.link.service = .statementDigest p body)
    (digest : Bytes) : linkDigestDone digest u = refuse status u := by
  rcases hv with hv | hv | ⟨body, hv⟩ <;> rw [linkDigestDone, hv]
  · exact placeSign_refused h _ _
  · exact countUse_refused h _ _
  · exact placeSign_refused h _ _

theorem signatureDone_refused {u : State} {p : Place} {status : Status} (h : u.kept.RefusesUse p status)
    (hv : u.link.service = .signEngine p ∨ ∃ body, u.link.service = .statementEngine p body) (signature : Bytes) :
    signatureDone signature u = refuse status u := by
  rcases hv with hv | ⟨body, hv⟩ <;> rw [signatureDone, hv]
  · exact countUse_refused h _ _
  · exact countUse_refused h _ _

/-- Settles O29: a block that completes the request's digest, by what the request's service does with it, and an operation that completes for
a use that is refused. -/
theorem finishedDigestsGoOn : Obligations.FinishedDigestsGoOn := by
  refine ⟨fun s chain tag r h hv hr h2 h7 => ?_, fun s p k body h hv hs ha => ?_, fun s f h hv hl hf hc => ?_,
    fun s f h hv hi => ?_, fun s p old h hv => ?_, fun s c p status refused work => ?_⟩
  · have checks : checkExtend chain (s.blockTaken ⟨.link, false⟩).ism = _ := checkExtend_open h2 h7 s.ism
    have asks := asker_of_request (u := s.blockTaken ⟨.link, false⟩) hr
    refine ⟨_, exec_linkFinishes h, ?_⟩
    by_cases closed : min (chain - 2) 3 < s.ism.stage.number
    · rw [if_pos closed] at checks
      rw [linkDigestDone_extend_refused (by exact hv) (by exact hr) checks, if_pos closed, ← asks]
      exact ⟨rfl, rfl, rfl, answers_goesOn _ _ _, rfl⟩
    by_cases full : 36 ≤ s.ism.log.length
    · rw [if_neg closed, if_pos full] at checks
      rw [linkDigestDone_extend_refused (by exact hv) (by exact hr) checks, if_neg closed, if_pos full, ← asks]
      exact ⟨rfl, rfl, rfl, answers_goesOn _ _ _, rfl⟩
    rw [if_neg closed, if_neg full] at checks
    rw [linkDigestDone_extend_appends (by exact hv) (by exact hr) checks, if_neg closed, if_neg full, ← asks]
    exact ⟨rfl, rfl, rfl, rfl, answers_goesOn .ok _ (appendRequest _ _ _ _ _)⟩
  · refine ⟨_, exec_linkFinishes h, ?_⟩
    rw [linkDigestDone_statement (by exact hv) (by exact hs) ha]
    exact ⟨rfl, rfl, rfl, rfl, rfl, rfl⟩
  · refine ⟨_, exec_linkFinishes h, ?_⟩
    rw [linkDigestDone_enrolling (by exact hv) (by exact checkEnrol_ok hl hf hc)]
    exact ⟨rfl, rfl, rfl, rfl, rfl, rfl⟩
  · obtain ⟨i, index⟩ := credIndex_factory hi
    refine ⟨_, exec_linkFinishes h, ?_⟩
    rw [linkDigestDone_provisioning (by exact hv) (by exact index)]
    exact ⟨rfl, rfl, rfl, rfl, rfl, rfl⟩
  · refine ⟨_, exec_linkFinishes h, ?_⟩
    rw [linkDigestDone_changing (by exact hv)]
    exact ⟨rfl, rfl, rfl, rfl, rfl, rfl⟩
  · rcases work with ⟨rfl, h, hv⟩ | ⟨rfl, hp, ⟨j, key, digest, rest, he⟩, hv⟩
    · refine ⟨_, exec_linkFinishes h, ?_⟩
      rw [linkDigestDone_refused (by exact refused) (by exact hv)]
      exact ⟨answers_goesOn _ _ (s.blockTaken _), rfl, rfl, rfl, rfl, fun _ => rfl⟩
    · refine ⟨_, exec_signCompletes hp he, ?_⟩
      rw [signatureDone_refused (by exact refused) (by exact hv)]
      exact ⟨answer_answers _ _ { s with engine := rest, draws := s.draws + 1 }, rfl, rfl, rfl, rfl, nofun⟩

end Sys2Proof.Machine
end

section
/-! SUPPORT. Proofs for chapter 5, part 1: how a verification is stopped (R24, R54), and what the state that serves a request of Image Acceptance
shares with the one it came from. -/

namespace Sys2Proof.Machine

/-! ## Jobs that join and start (R49, R50) -/

/-- The jobs that wait after each requester has placed what it could are those that waited, placed or not. -/
theorem refill_waiting {P : Job → Prop} {s : State} (waiting : ∀ j ∈ s.reader.waiting, P j) (measured : ∀ j ∈ s.gate.unplaced, P j)
    (verified : ∀ j ∈ s.image.unplaced, P j) (scanned : ∀ j ∈ s.gate.unplacedScans, P j) :
    ∀ j ∈ (refill s).reader.waiting, P j :=
  placeAll_waiting P _ _ scanned
    (placeAll_waiting P _ _ (fun j hj => verified j (by simpa using hj)) (placeAll_waiting P _ _ measured waiting))

/-- Jobs that join leave the job in progress as it is. -/
theorem placeAll_progress (jobs : List Job) (r : FlashReader) :
    (placeAll jobs r).2.current = r.current ∧ (placeAll jobs r).2.cancelled = r.cancelled := by
  rw [placeAll_reader]
  exact ⟨rfl, rfl⟩

theorem refill_progress (s : State) :
    (refill s).reader.current = s.reader.current ∧ (refill s).reader.cancelled = s.reader.cancelled := by
  simp only [refill, (placeAll_progress _ _).1, (placeAll_progress _ _).2, and_self]

theorem FlashReader.next_mem {r : FlashReader} {j : Job} (h : r.next = some j) : j ∈ r.waiting := by
  simp only [FlashReader.next, Option.or_eq_some_iff] at h
  rcases h with h | ⟨_, h | ⟨_, h⟩⟩ <;> exact List.mem_of_find?_eq_some h

/-- A reader stands, or starts one of the jobs that wait (R50). -/
theorem FlashReader.start_cases (r : FlashReader) :
    r.start = r ∨ ∃ j ∈ r.waiting, r.current = none ∧ r.start = ⟨r.waiting.erase j, some j, false, false, [], none⟩ := by
  unfold FlashReader.start
  split
  · next j idle next => exact .inr ⟨j, FlashReader.next_mem next, idle, rfl⟩
  · exact .inl rfl

/-! ## A verification is stopped (R24, R54) -/

/-- No job of Image Acceptance waits, placed or not, and the other blocks' jobs are their own. -/
structure State.NoVerifyWaits (s : State) : Prop where
  waiting : ∀ j ∈ s.reader.waiting, j.purpose ≠ .imageVerify
  image : s.image.unplaced = none
  measured : ∀ j ∈ s.gate.unplaced, j.purpose ≠ .imageVerify
  scanned : ∀ j ∈ s.gate.unplacedScans, j.purpose ≠ .imageVerify

/-- Where no job of Image Acceptance waits, the jobs that join and start leave its cancelled job as it is. -/
theorem pump_verifyJobGone {s t : State} (h : VerifyJobGone s t) (ht : t.NoVerifyWaits) :
    VerifyJobGone s (pump t) ∧ ∀ j ∈ (pump t).reader.waiting, j.purpose ≠ .imageVerify := by
  have waits : ∀ j ∈ (refill t).reader.waiting, j.purpose ≠ .imageVerify :=
    refill_waiting ht.waiting ht.measured (fun j hj => by simp [ht.image] at hj) ht.scanned
  obtain ⟨current, cancelled⟩ := refill_progress t
  have reader : (pump t).reader = (refill t).reader.start := rfl
  rcases (refill t).reader.start_cases with stands | ⟨first, hf, idle, starts⟩
  · rw [stands] at reader
    exact ⟨⟨by rw [reader, current]; exact h.gone, h.context, by rw [reader, current, cancelled]; exact h.marked⟩, by rwa [reader]⟩
  · rw [starts] at reader
    refine ⟨⟨fun _ j hj => ?_, h.context, fun j hj hv hb => ?_⟩, fun j hj => waits j ?_⟩
    · rw [reader] at hj
      exact Option.some.inj hj ▸ waits first hf
    · exact absurd (idle.symm.trans (current.trans (h.marked j hj hv hb).1)) nofun
    · rw [reader] at hj
      exact List.mem_of_mem_erase hj

/-- Cancelled jobs of a purpose wait no more, and nothing has joined or left elsewhere (R54). -/
theorem cancelJobs_rest (p : Purpose) (s : State) :
    (∀ j ∈ (cancelJobs p s).reader.waiting, j.purpose ≠ p) ∧ (cancelJobs p s).image = s.image := by
  have waiting : ∀ j ∈ s.reader.waiting.filter (fun j => j.purpose != p), j.purpose ≠ p := fun j hj => by
    simpa using (List.mem_filter.1 hj).2
  unfold cancelJobs
  dsimp only
  repeat' split
  all_goals exact ⟨waiting, rfl⟩

/-- Image Acceptance's job in progress is cancelled: at once, or with the burst being read (R54). -/
theorem cancelJobs_verifyJobGone (s : State) : VerifyJobGone s (cancelJobs .imageVerify s) := by
  unfold cancelJobs
  dsimp only
  split
  · next j current =>
    split
    · next verifies =>
      split
      · next bursting => exact ⟨fun idle => absurd (bursting.symm.trans idle) nofun,
          fun _ _ _ idle => absurd (bursting.symm.trans idle) nofun, fun _ hj _ _ => ⟨hj, rfl⟩⟩
      · next idle => exact ⟨fun _ _ => nofun, fun _ _ _ _ => rfl, fun _ _ _ bursting => absurd bursting idle⟩
    · next other =>
      have differs : ∀ k, s.reader.current = some k → k.purpose ≠ .imageVerify := fun k hk =>
        Option.some.inj (current.symm.trans hk) ▸ other
      exact ⟨fun _ => differs, fun k hk hv => absurd hv (differs k hk), fun k hk hv => absurd hv (differs k hk)⟩
  · next idle =>
    have absent : ∀ k, s.reader.current ≠ some k := fun k hk => nomatch idle.symm.trans hk
    exact ⟨fun _ k hk => absurd hk (absent k), fun k hk => absurd hk (absent k), fun k hk => absurd hk (absent k)⟩

/-- A verification that is stopped leaves no job: one that waits is gone, and so is the one in progress, now or with its burst (R54). -/
theorem stopVerification_verifyJobGone {s : State} (h : s.JobsMatch) :
    VerifyJobGone s (stopVerification s) ∧ ∀ j ∈ (stopVerification s).reader.waiting, j.purpose ≠ .imageVerify := by
  let closed : State := { s with image := ⟨none, none⟩, engine := s.engine.filter fun op => !op.isVerify }
  obtain ⟨waiting, image⟩ := cancelJobs_rest .imageVerify closed
  have gate : (cancelJobs .imageVerify closed).gate = s.gate := cancelJobs_gate .imageVerify closed
  have gone := cancelJobs_verifyJobGone closed
  exact pump_verifyJobGone ⟨gone.gone, gone.context, gone.marked⟩
    ⟨waiting, by rw [image], fun j hj => by simp [h.measured j (gate ▸ hj)], fun j hj => by simp [h.scanned j (gate ▸ hj)]⟩

end Sys2Proof.Machine
end

section
/-! SUPPORT. Proofs for chapter 5, part 2: VERIFY STAGED and ABORT IMAGE from the frame to what they hand over, and the verification deadline (R97, R104,
R109, R184). -/

namespace Sys2Proof.Machine

/-! ## The requests of UPDATE (R170) -/

/-- The requests of Image Acceptance that need UPDATE pass step 6 with it, and do not use the vault. -/
theorem imageRequest_granted {s : State} {code : Req} {identity : Byte} (payload : Bytes)
    (hc : code ∈ [.verifyStaged, .abortImage, .armTrial, .confirmImage]) (hr : s.hasRight identity.toNat rightUpdate = true) :
    checkRight code identity.toNat payload s = .ok () ∧ code.usesVault payload = false := by
  simp only [List.mem_cons, List.not_mem_nil, or_false] at hc
  rcases hc with rfl | rfl | rfl | rfl <;> exact ⟨checkRight_held (by decide) rfl (by decide) hr, rfl⟩

theorem admittedGate_unplaced (s : State) : s.admittedGate.unplaced = s.gate.unplaced := by
  unfold State.admittedGate
  split <;> rfl

section Serving

variable {s u : State} {code : Req} {identity : Byte} {payload : Bytes}

/-- The frame that is admitted neither takes the Boot Gate to RUNNING nor out of it (R77). -/
theorem Serving.running_iff (hu : Serving s code identity payload u) (h : s.held = false) :
    u.gate.state = .running ↔ s.gate.state = .running := by
  rw [hu.gate, admittedGate_state h]
  split <;> simp_all

theorem Serving.trialBooted (hu : Serving s code identity payload u) : u.gate.trialBooted = s.gate.trialBooted := by
  rw [hu.gate, BootGate.trialBooted, BootGate.trialBooted, (admittedGate_boot s).2.2.1]

/-- The jobs that wait for an entry are each block's own in the state that serves a request as before (R49). -/
theorem Serving.jobsMatch (hu : Serving s code identity payload u) (h : s.JobsMatch) : u.JobsMatch where
  measured := by rw [hu.gate, admittedGate_unplaced]; exact h.measured
  scanned := by rw [hu.gate, BootGate.unplacedScans, (admittedGate_scan s).2.1]; exact h.scanned
  verified := by rw [hu.image]; exact h.verified

end Serving

/-! ## VERIFY STAGED (R97, R184) -/

/-- The lifecycle and the Boot Gate are tested first, and then the staged state decides (R97, R184). -/
theorem serveVerifyStaged_checks (identity : Nat) (u : State) :
    serveVerifyStaged identity [] u = served
      (if u.kept.lifecycle ≠ .field ∨ u.gate.state ≠ .running then .error .wrongState
        else checkStageable u.kept.staged >>= fun _ => pure (u.handOver (.stagedPut .verifying) (.accept identity))) u := by
  change served (check (u.kept.lifecycle == .field) .wrongState >>= fun _ => check (u.gate.state == .running) .wrongState >>= fun _ =>
    checkStageable u.kept.staged >>= fun _ => pure (u.handOver (.stagedPut .verifying) (.accept identity))) u = _
  simp only [check_bind, beq_iff_eq]
  by_cases field : u.kept.lifecycle = .field <;> by_cases running : u.gate.state = .running <;> simp [field, running]

theorem serveVerifyStaged_refused {u : State} (h : u.kept.lifecycle ≠ .field ∨ u.gate.state ≠ .running) (identity : Nat) :
    serveVerifyStaged identity [] u = refuse .wrongState u := by
  rw [serveVerifyStaged_checks, if_pos h, served_error]

theorem serveVerifyStaged_hands {u : State} (hf : u.kept.lifecycle = .field) (hr : u.gate.state = .running)
    (hs : checkStageable u.kept.staged = .ok ()) (identity : Nat) :
    serveVerifyStaged identity [] u = u.handOver (.stagedPut .verifying) (.accept identity) := by
  simp [serveVerifyStaged_checks, hf, hr, hs]

theorem serveVerifyStaged_unstageable {u : State} {status : Status} (hf : u.kept.lifecycle = .field) (hr : u.gate.state = .running)
    (hs : checkStageable u.kept.staged = .error status) (identity : Nat) : serveVerifyStaged identity [] u = refuse status u := by
  simp [serveVerifyStaged_checks, hf, hr, hs]

/-- VERIFY STAGED by the lifecycle, the Boot Gate and the staged state (R97, R184). -/
theorem verifyStaged_answers {s : State} {identity : Byte} (h : s.Hears identity [])
    (hr : s.hasRight identity.toNat rightUpdate = true) :
    ∃ t, exec (.verifyStaged identity []) s = .next t ∧
      if s.kept.lifecycle ≠ .field ∨ s.gate.state ≠ .running then Replies s identity .wrongState [] t
      else match s.kept.staged with
        | .none | .verified _ _ | .rejected _ _ _ =>
          Hands s .verifyStaged identity [] (.stagedPut .verifying) (.accept identity.toNat) s.biu t
        | .verifying => Replies s identity .busy [] t
        | .armed _ _ | .trial _ _ => Replies s identity .wrongState [] t := by
  obtain ⟨right, vault⟩ := imageRequest_granted (code := .verifyStaged) [] (by decide) hr
  split
  · next refused =>
    refine request_answered h right vault fun u hu => serveVerifyStaged_refused ?_ _
    rwa [hu.kept, ne_eq u.gate.state, hu.running_iff h.running]
  · next ready =>
    obtain ⟨field, running⟩ : s.kept.lifecycle = .field ∧ s.gate.state = .running := by simpa using ready
    have hands (stageable : checkStageable s.kept.staged = .ok ()) :
        ∃ t, exec (.verifyStaged identity []) s = .next t ∧
          Hands s .verifyStaged identity [] (.stagedPut .verifying) (.accept identity.toNat) s.biu t :=
      request_hands h right vault fun u hu => serveVerifyStaged_hands (by rw [hu.kept, field])
        ((hu.running_iff h.running).2 running) (by rw [hu.kept, stageable]) _
    have refuses {status : Status} (unstageable : checkStageable s.kept.staged = .error status) :
        ∃ t, exec (.verifyStaged identity []) s = .next t ∧ Replies s identity status [] t :=
      request_answered h right vault fun u hu => serveVerifyStaged_unstageable (by rw [hu.kept, field])
        ((hu.running_iff h.running).2 running) (by rw [hu.kept, unstageable]) _
    cases staged : s.kept.staged with
    | none | verified | rejected => exact hands (by rw [staged]; rfl)
    | verifying | armed | trial => exact refuses (by rw [staged]; rfl)

/-! ## ABORT IMAGE (R109) -/

theorem serveAbortImage_eq (identity : Nat) (u : State) : serveAbortImage identity [] u = served (abortStaged u) u := rfl

/-- A verification that is stopped, and a write handed over after it: what the event leaves of the verification and of the rest (R24, R54, R105,
R109). -/
structure VerificationEnded (s : State) (item : StoreItem) (t : State) : Prop where
  store : t.store = { s.store with waiting := s.store.waiting ++ [item] }
  closed : t.image = ⟨none, none⟩
  engine : t.engine = s.engine.filter (fun op => !op.isVerify)
  waiting : ∀ j ∈ t.reader.waiting, j.purpose ≠ .imageVerify
  job : VerifyJobGone s t
  rest : FlashWork s t

/-- A verification that is stopped, and what is then handed over (R105, R109). -/
theorem stopVerification_ended {s : State} (h : s.JobsMatch) (op : StoreOp) (after : After) :
    VerificationEnded s ⟨op, after⟩ ((stopVerification s).handOver op after) := by
  obtain ⟨closed, engine, store, _⟩ := stopVerification_stopped s
  obtain ⟨job, waiting⟩ := stopVerification_verifyJobGone h
  exact ⟨by simp only [State.handOver, store], closed, engine, waiting, ⟨job.gone, job.context, job.marked⟩,
    (stopVerification_work s).trans (handOver_work _ _ _)⟩

/-- ABORT IMAGE in VERIFYING stops the verification and hands NONE over (R109). -/
theorem serveAbortImage_verifying {u : State} (h : u.JobsMatch) (hv : u.kept.staged = .verifying) (identity : Nat) :
    VerificationEnded u ⟨.stagedPut .none, .reply []⟩ (serveAbortImage identity [] u) := by
  have aborts : serveAbortImage identity [] u = (stopVerification u).handOver (.stagedPut .none) (.reply []) := by
    simp [serveAbortImage_eq, abortStaged, hv, discardStaged]
  rw [aborts]
  exact stopVerification_ended h _ _

/-- What is said of the job in progress is said of the reader that it was in, and of the reader and its context that are left. -/
theorem VerifyJobGone.of_reader {s u t t' : State} (h : VerifyJobGone u t) (hs : u.reader = s.reader) (ht : t'.reader = t.reader)
    (hd : t'.digest.reader = t.digest.reader) : VerifyJobGone s t' where
  gone := by rw [← hs, ht]; exact h.gone
  context := by rw [← hs, hd]; exact h.context
  marked := by rw [← hs, ht]; exact h.marked

/-- ABORT IMAGE in VERIFYING, from its frame (R24, R54, R109). -/
theorem abortImage_verifying {s : State} {identity : Byte} (hj : s.JobsMatch) (h : s.Hears identity [])
    (hr : s.hasRight identity.toNat rightUpdate = true) (hv : s.kept.staged = .verifying) :
    ∃ t, exec (.abortImage identity []) s = .next t ∧ t.Serves .abortImage identity [] ∧
      t.store = { s.store with waiting := s.store.waiting ++ [⟨.stagedPut .none, .reply []⟩] } ∧
      t.image.verification = none ∧ t.engine = s.engine.filter (fun op => !op.isVerify) ∧
      (∀ j ∈ t.reader.waiting, j.purpose ≠ .imageVerify) ∧ t.image.unplaced = none ∧ VerifyJobGone s t ∧
      t.kept = s.kept ∧ t.ism = s.ism ∧ t.keys = s.keys ∧
      t.vault.penalty = s.vault.penalty ∧ t.vault.decay = s.vault.decay ∧ t.biu = s.biu ∧
      t.reactions = s.reactions ∧ t.link.flags = s.link.flags ∧ t.uptime = s.uptime ∧ t.pending = s.pending := by
  obtain ⟨right, vault⟩ := imageRequest_granted (code := .abortImage) [] (by decide) hr
  obtain ⟨u, hu, event⟩ := request_serves (serve := serveAbortImage) h right vault
  have ended := serveAbortImage_verifying (hu.jobsMatch hj) (by rw [hu.kept, hv]) identity.toNat
  generalize serveAbortImage identity.toNat [] u = v at event ended
  obtain ⟨store, closed, engine, waiting, job, rest⟩ := ended
  rw [hu.store] at store
  rw [hu.engine] at engine
  refine ⟨_, event, ⟨?_, ?_⟩, store, congrArg ImageUnit.verification closed, engine, waiting, congrArg ImageUnit.unplaced closed,
    job.of_reader hu.reader rfl rfl, rest.kept.trans hu.kept, rest.ism.trans hu.ism, rest.keys.trans hu.keys, ?_, ?_,
    rest.biu.trans hu.biu, rest.reactions.trans hu.reactions, ?_, rest.uptime.trans hu.uptime, rest.pending.trans hu.pending⟩
  · exact (congrArg Link.state rest.link).trans hu.serves.serving
  · exact (congrArg Link.request rest.link).trans hu.serves.request
  · exact (congrArg VaultUnit.penalty rest.vault).trans hu.penalty
  · exact (congrArg VaultUnit.decay rest.vault).trans hu.decay
  · exact (congrArg Link.flags rest.link).trans hu.flags

/-! ## The verification deadline (R104) -/

theorem exec_verificationDeadline {s : State} {v : Verification} {d : Nat} (hp : s.powered = true)
    (hv : s.image.verification = some v) (hd : v.deadline = some d) (due : d ≤ s.uptime) :
    exec .verificationDeadlineExpiry s = .next (reject .timeout s).settle := by
  simp [exec, execVerificationDeadlineExpiry, event, hp, State.verificationDue, hv, hd, reached, due]

/-- The deadline rejects the staged record with TIMEOUT, with the fields known and the progress reached (R104, R105). -/
theorem reject_ended {s : State} {v : Verification} (h : s.JobsMatch) (hv : s.image.verification = some v) (reason : RejectReason) :
    VerificationEnded s ⟨.stagedPut (.rejected (v.manifest.map (·.fields)) v.progress reason), .silent⟩ (reject reason s) := by
  have known : s.image.knownFields = v.manifest.map (·.fields) := by simp [ImageUnit.knownFields, hv]
  have progress : s.image.progress = v.progress := by simp [ImageUnit.progress, hv]
  rw [reject, known, progress]
  exact stopVerification_ended h _ _

/-- Settles O13: ABORT IMAGE by the staged state, and the deadline by the rejection that it makes. -/
theorem abortAndDeadlineEndTheVerification : Obligations.AbortAndDeadlineEndTheVerification := by
  refine ⟨fun s identity hj h hr => ?_, fun s v d hj hp hv hd due => ?_, fun r x => rfl, fun r f c hs => ?_⟩
  · obtain ⟨right, vault⟩ := imageRequest_granted (code := .abortImage) [] (by decide) hr
    have serves {u : State} (hu : Serving s .abortImage identity [] u) {x : Staged} (staged : s.kept.staged = x) :
        u.kept.staged = x := by rw [hu.kept, staged]
    cases staged : s.kept.staged with
    | none =>
      exact request_answered h right vault fun u hu => by simp [serveAbortImage_eq, abortStaged, serves hu staged]
    | verified | rejected =>
      exact request_hands h right vault fun u hu => by simp [serveAbortImage_eq, abortStaged, serves hu staged, discardStaged]
    | armed =>
      exact request_hands h right vault fun u hu => by simp [serveAbortImage_eq, abortStaged, serves hu staged]
    | trial =>
      exact request_answered h right vault fun u hu => by simp [serveAbortImage_eq, abortStaged, serves hu staged, refuse]
    | verifying => exact abortImage_verifying hj h hr staged
  · obtain ⟨store, closed, engine, waiting, job, rest⟩ := reject_ended hj hv .timeout
    exact ⟨_, exec_verificationDeadline hp hv hd due, store, congrArg ImageUnit.verification closed, engine, waiting,
      congrArg ImageUnit.unplaced closed, job.of_reader rfl rfl rfl, rest.kept, rest.ism, rest.keys, rest.link, rest.vault, rest.biu,
      rest.reactions, rest.uptime, rest.pending⟩
  · simp [Records.written, Records.disarm, hs]

end Sys2Proof.Machine
end

section
/-! SUPPORT. Proofs for chapter 5, part 3: ARM TRIAL and CONFIRM IMAGE from the frame to what they hand over, and the ends of the writes of the staged
record (R97, R98, R103, R105, R110, R112, R113). -/

namespace Sys2Proof.Machine

/-! ## ARM TRIAL (R110) -/

/-- The tries of ARM TRIAL: 2 where none are given, and otherwise taken as 1..3 (R110). -/
theorem readTries_given {payload : Bytes} {n : Nat}
    (h : payload = [] ∧ n = 2 ∨ (∃ b : Byte, payload = [b] ∧ n = max 1 (min 3 b.toNat))) : readTries payload = some n := by
  rcases h with ⟨rfl, rfl⟩ | ⟨b, rfl, rfl⟩ <;> rfl

/-- ARM TRIAL in FIELD of a verified image: the line decides (R110). -/
theorem serveArmTrial_verified {u : State} {payload : Bytes} {n : Nat} {f : ImageFields} {c : Option (List Region)}
    (hn : readTries payload = some n) (hf : u.kept.lifecycle = .field) (hs : u.kept.staged = .verified f c) (identity : Nat) :
    serveArmTrial identity payload u =
      if f.line = 0 then u.handOver (.arm n) (.reply [byteOf n]) else refuse .badArgument u := by
  by_cases line : f.line = 0 <;>
    simp [serveArmTrial, hn, checkField, hf, hs, Staged.verifiedFields, check_bind, line]

/-! ## CONFIRM IMAGE (R112, R113) -/

/-- CONFIRM IMAGE of line 0 in FIELD, of a trial of that line: whether the trial runs decides (R112). -/
theorem serveConfirmImage_trial {u : State} {f : ImageFields} {c : Option (List Region)} (hf : u.kept.lifecycle = .field)
    (hs : u.kept.staged = .trial f c) (hl : f.line = 0) (identity : Nat) :
    serveConfirmImage identity [0] u =
      if u.gate.state = .running ∧ u.gate.trialBooted = true then u.handOver .confirmBoot (.replyConfirm 0)
      else refuse .wrongState u := by
  by_cases running : u.gate.state = .running ∧ u.gate.trialBooted = true <;>
    simp [serveConfirmImage, checkField, hf, hs, Staged.confirmable, hl, check_bind, State.trialRunning, Staged.isTrial, running]

/-- CONFIRM IMAGE of lines 1..3 in FIELD, of a verified image: its line decides (R113). -/
theorem serveConfirmImage_verified {u : State} {line : Byte} {f : ImageFields} {c : Option (List Region)}
    (hf : u.kept.lifecycle = .field) (hs : u.kept.staged = .verified f c) (h1 : 1 ≤ line.toNat) (h3 : line.toNat ≤ 3)
    (identity : Nat) :
    serveConfirmImage identity [line] u =
      if f.line = line.toNat then u.handOver (.confirmLine line.toNat) (.replyConfirm line.toNat) else refuse .badArgument u := by
  have above : line.toNat ≠ 0 := by omega
  by_cases same : f.line = line.toNat <;>
    simp [serveConfirmImage, checkField, hf, hs, Staged.confirmable, check_bind, Staged.isTrial, h3, above, same]

/-! ## The ends of a write of the staged record (R182, R183) -/

/-- Where no bank selection is awaited, a write that fails leaves its effects, and its writer goes on (R183). -/
theorem fail_goesOn {s : State} {op : StoreOp} {after : After} {u : State} (hp : s.powered = true)
    (hm : s.store.making = some ⟨op, after⟩)
    (hu : goOnFailed .storeFault after
      (failureEffects op (State.raise .storeFault { s with store := { s.store with making := none } })) = u)
    (hg : u.gate.selection = .idle) : exec .storeWriteFailed s = .next u.settle := by
  rw [exec_writeFails hp hm, failItem, hu, interruptStep_idle hg]

/-- Where no bank selection is awaited, a write that is made leaves its records and its effects, and its writer goes on (R182). -/
theorem complete_goesOn {s : State} {op : StoreOp} {after : After} {u : State} (hp : s.powered = true)
    (hm : s.store.making = some ⟨op, after⟩) (hr : s.kept.recheck op = .ok ())
    (hu : goOn after (completionEffects s.kept op (s.withWritten op)) = u) (hg : u.gate.selection = .idle) :
    exec .storeWriteComplete s = .next u.settle := by
  unfold State.withWritten at hu
  rw [exec_writeMade hp hm hr, hu, interruptStep_idle hg]

section Ends

variable {s : State} (hp : s.powered = true) (hg : s.gate.selection = .idle)
include hp hg

/-- A write that fails with no effect of its own, of a request that is answered after it, is answered STORE_FAULT and changes nothing but the
reply and the flag (R183). -/
theorem write_faults {op : StoreOp} {after : After} (hm : s.store.making = some ⟨op, after⟩) (ho : ∀ t, failureEffects op t = t)
    (ha : ∀ t, goOnFailed .storeFault after t = refuse .storeFault t) :
    ∃ t, exec .storeWriteFailed s = .next t ∧ t.kept = s.kept ∧ t.image = s.image ∧ t.reader = s.reader ∧
      t.Answers s.asker .storeFault [] ∧ t.link.flags = s.link.flags ||| Flag.storeFault.set :=
  ⟨_, fail_goesOn hp hm
      (u := refuse .storeFault (State.raise .storeFault { s with store := { s.store with making := none } })) (by rw [ho, ha])
      hg, rfl, rfl, rfl, answer_answers _ _ _, rfl⟩

/-- The acceptance opens the verification, places its first job and answers STARTED (R97, R98). -/
theorem accept_completes {identity : Nat} (hm : s.store.making = some ⟨.stagedPut .verifying, .accept identity⟩) :
    ∃ t, exec .storeWriteComplete s = .next t ∧ t.kept = { s.kept with staged := .verifying } ∧
      t.image.verification = some ⟨.manifestRead, identity, s.uptime, some (s.uptime + 4000), none, 0, 0⟩ ∧
      (⟨.imageVerify, s.inactiveBank.base s.bankSize, 4096, 4096, none, 0⟩ : Job) ∈
        t.reader.entries ++ t.image.unplaced.toList ∧
      t.Answers s.asker .started [] ∧ t.store = { s.store with making := none } ∧ t.link.flags = s.link.flags ∧
      t.ism = s.ism ∧ t.engine = s.engine ∧ t.uptime = s.uptime := by
  have completes := complete_goesOn hp hm rfl (u := acceptVerification identity (s.withWritten (.stagedPut .verifying))) rfl hg
  exact ⟨_, completes, rfl, rfl, placeImageJob_placed s.manifestJob _, answer_answers _ _ _, rfl, rfl, rfl, rfl, rfl⟩

end Ends

/-- Settles O12: VERIFY STAGED by its checks, and each write by the effects of its end. -/
theorem verificationBeginsAndEndsInTheStore : Obligations.VerificationBeginsAndEndsInTheStore :=
  ⟨fun _ _ h hr => verifyStaged_answers h hr,
    fun _ _ hp hg hm => ⟨accept_completes hp hg hm, write_faults hp hg hm (fun _ => rfl) fun _ => rfl⟩,
    fun _ _ _ hp hg hm => ⟨⟨_, complete_goesOn hp hm rfl rfl hg, rfl⟩, ⟨_, fail_goesOn hp hm rfl hg, rfl⟩⟩,
    fun _ _ _ _ hp hg hm => ⟨_, complete_goesOn hp hm rfl rfl hg, rfl⟩⟩

/-! ## The ends of the confirming update (R112, R113) -/

/-- The confirming update of line 0 is answered with the new active bank and counter 0 (R112). -/
theorem Records.confirmation_boot {r : Records} {f : ImageFields} {regions : List Region} (h : r.staged = .trial f (some regions)) :
    r.confirmBoot.confirmation 0 = r.selector.active.other.code :: le16 f.epoch := by
  obtain ⟨selector, _, _, _, counter, _⟩ := Records.confirmBoot_writes h
  simp [Records.confirmation, selector, counter]

/-- The confirming update of lines 1..3 gives the line its new counter, and is answered with it (R113). -/
theorem Records.confirmLine_counter {r : Records} {f : ImageFields} {c : Option (List Region)} {line : Nat}
    (h : r.staged = .verified f c) (h3 : line ≤ 3) : (r.confirmLine line).counter line = f.epoch := by
  rw [Records.confirmLine_verified h]
  exact Records.withCounter_same r h3 _

theorem Records.confirmation_line {r : Records} {f : ImageFields} {c : Option (List Region)} {line : Nat}
    (h : r.staged = .verified f c) (h1 : 1 ≤ line) (h3 : line ≤ 3) : (r.confirmLine line).confirmation line = le16 f.epoch := by
  rw [Records.confirmation, if_neg (by omega), Records.confirmLine_counter h h3]

/-- Settles O14: the requests by their checks, and the confirming update by its records and its reply. -/
theorem armTrialAndConfirmImageHandTheirUpdate : Obligations.ArmTrialAndConfirmImageHandTheirUpdate := by
  refine ⟨fun r n f c hs => ?_, fun s f regions hp hg hm hs => ⟨?_, ?_⟩, fun s f c line hp hg hm hs h1 h3 => ⟨?_, ?_⟩,
    fun s identity hr hf => ⟨fun payload n f c h hn hs => ?_, fun f c h hs hl => ?_, fun line f c h h1 h3 hs => ?_⟩⟩
  · simp [Records.written, Records.arm, hs]
  · obtain ⟨selector, _, _, _, counter, _⟩ := Records.confirmBoot_writes hs
    rw [← Records.confirmation_boot hs]
    exact ⟨_, complete_answers hp hm rfl (u := s.withWritten .confirmBoot) rfl hg rfl, rfl, selector, counter, rfl, rfl,
      answer_answers _ _ _⟩
  · obtain ⟨t, fails, kept, _, _, answers, _⟩ := write_faults hp hg hm (fun _ => rfl) fun _ => rfl
    exact ⟨t, fails, kept, answers⟩
  · rw [← Records.confirmation_line hs h1 h3]
    exact ⟨_, complete_answers hp hm rfl (u := s.withWritten (.confirmLine line)) rfl hg rfl, rfl,
      Records.confirmLine_counter hs h3, rfl, answer_answers _ _ _⟩
  · obtain ⟨t, fails, kept, _, _, answers, _⟩ := write_faults hp hg hm (fun _ => rfl) fun _ => rfl
    exact ⟨t, fails, kept, answers⟩
  · obtain ⟨right, vault⟩ := imageRequest_granted (code := .armTrial) payload (by decide) hr
    have arms {u : State} (hu : Serving s .armTrial identity payload u) :=
      serveArmTrial_verified (u := u) (readTries_given hn) (by rw [hu.kept, hf]) (by rw [hu.kept, hs]) identity.toNat
    split
    · next line => exact request_hands h right vault fun u hu => by rw [arms hu, if_pos line]
    · next line => exact request_answered h right vault fun u hu => by rw [arms hu, if_neg line, refuse]
  · obtain ⟨right, vault⟩ := imageRequest_granted (code := .confirmImage) [0] (by decide) hr
    have confirms {u : State} (hu : Serving s .confirmImage identity [0] u) :=
      serveConfirmImage_trial (u := u) (by rw [hu.kept, hf]) (by rw [hu.kept, hs]) hl identity.toNat
    have same {u : State} (hu : Serving s .confirmImage identity [0] u) :
        (u.gate.state = .running ∧ u.gate.trialBooted = true) ↔ (s.gate.state = .running ∧ s.gate.trialBooted = true) := by
      rw [hu.running_iff h.running, hu.trialBooted]
    split
    · next runs => exact request_hands h right vault fun u hu => by rw [confirms hu, if_pos ((same hu).2 runs)]
    · next idle => exact request_answered h right vault fun u hu => by rw [confirms hu, if_neg (idle ∘ (same hu).1), refuse]
  · obtain ⟨right, vault⟩ := imageRequest_granted (code := .confirmImage) [line] (by decide) hr
    have confirms {u : State} (hu : Serving s .confirmImage identity [line] u) :=
      serveConfirmImage_verified (u := u) (by rw [hu.kept, hf]) (by rw [hu.kept, hs]) h1 h3 identity.toNat
    split
    · next same => exact request_hands h right vault fun u hu => by rw [confirms hu, if_pos same]
    · next other => exact request_answered h right vault fun u hu => by rw [confirms hu, if_neg other, refuse]

end Sys2Proof.Machine
end

section
/-! SUPPORT. Proofs for chapter 8, part 1: how an event ends, and a condition event with its actions entry by entry; the button (R148, R149,
R80, R160, R161). -/

namespace Sys2Proof.Machine

/-! ## How an event ends -/

/-- An event that occurs has its effect, and the pins follow. -/
theorem event_occurs {condition : Bool} {s : State} (effect : State → State) (powered : s.powered = true)
    (holds : condition = true) : event condition effect s = .next (effect s).settle := by
  simp [event, powered, holds]

/-- An event that does not occur changes nothing; after one that does the pins follow (log entry 5). -/
theorem event_settles {condition : Bool} {effect : State → State} {s t : State} (h : event condition effect s = .next t) :
    t = s ∨ ∃ u : State, t = u.settle := by
  unfold event at h
  split at h
  · exact .inr ⟨_, (Host.Outcome.next.inj h).symm⟩
  · exact .inl (Host.Outcome.next.inj h).symm

/-- The pins that follow a state show its IND (R154). -/
theorem State.settle_ind (s : State) : s.settle.pins.ind = s.settle.indLit := rfl

/-! ## The entries of a condition event (R158, R160) -/

/-- An entry matches where it is enabled and names the condition and, for PENALTY_LEVEL, the count, and a once-entry where its mark is clear. -/
theorem matching_contains {s : State} {condition : Condition} {count i : Nat} {e : ReactionEntry} {mark : Bool}
    (entry : s.kept.reactions[i]? = some e) (fired : s.reactions.fired[i]? = some mark) :
    (s.matching condition count).contains i = true ↔ e.enabled = true ∧ e.condition = condition ∧
      (condition = .penaltyLevel → e.threshold = some count) ∧ (e.once = true → mark = false) := by
  have inTable : i < 8 := (Vector.getElem?_eq_some_iff.1 entry).1
  have agrees : s.entryMatches condition count i =
      (e.enabled && e.condition == condition && (condition != .penaltyLevel || e.threshold == some count) && (!e.once || !mark)) := by
    simp only [State.entryMatches, entry, fired]
  simp only [State.matching, List.contains_iff_mem, List.mem_filter, List.mem_range, inTable, true_and, agrees, Bool.and_eq_true,
    beq_iff_eq, Bool.or_eq_true, bne_iff_ne, ne_eq, Bool.not_eq_true', and_assoc]
  grind

/-- An entry that fires has its count raised, and its mark set where it is a once-entry; another has neither (R160). -/
theorem markFired_entry {entries : List Nat} {s : State} {i n : Nat} {e : ReactionEntry} {mark : Bool}
    (entry : s.kept.reactions[i]? = some e) (fired : s.reactions.fired[i]? = some mark) (counted : s.reactions.counts[i]? = some n) :
    if entries.contains i = true then
      (markFired entries s).reactions.fired[i]? = some (mark || e.once) ∧
        (markFired entries s).reactions.counts[i]? = some (min (n + 1) 255)
    else (markFired entries s).reactions.fired[i]? = some mark ∧ (markFired entries s).reactions.counts[i]? = some n := by
  have once : s.entryOnce i = e.once := by simp only [State.entryOnce, entry]
  simp only [markFired, Vector.getElem?_mapIdx, fired, counted, Option.map_some, once]
  split
  · next fires => simp only [fires, Bool.true_and, saturating, and_self]
  · next rests => simp only [rests, Bool.false_and, Bool.or_false, and_self]

/-! ## The actions of a condition event (R7, R145, R161) -/

/-- The vault with an owner reset of the table in its list: one that waits already, or a new one at the end (R145). -/
def VaultUnit.awaitsReset (v : VaultUnit) : VaultUnit :=
  if v.waiting.contains .reset then v else { v with waiting := v.waiting ++ [.reset] }

theorem VaultUnit.reset_waits (v : VaultUnit) : .reset ∈ v.awaitsReset.waiting := by
  unfold VaultUnit.awaitsReset
  split
  · next waits => exact List.contains_iff_mem.1 waits
  · exact List.mem_append_right _ (List.mem_singleton_self _)

theorem awaitReset_vault (s : State) : awaitReset s = { s with vault := s.vault.awaitsReset } := by
  unfold awaitReset VaultUnit.awaitsReset
  split <;> rfl

section Actions

variable (actions : List Action) (s : State)

/-- SHOW_PATTERN gives the reaction source the pattern of the highest entry, and touches no other source. -/
theorem showPattern_biu : (showPattern actions s).biu = { s.biu with
    reaction := match (actions.filterMap Action.patternNumber).getLast? with
      | some number => s.biu.reaction.give s.uptime (s.kept.pattern number)
      | none => s.biu.reaction } := by
  cases shown : (actions.filterMap Action.patternNumber).getLast? <;> simp only [showPattern, shown]

/-- A slot is suspended after SUSPEND_SLOTS where it was, and where its answer set meets the set. -/
theorem suspendSlots_suspended {i : Nat} (h : i < 24) (set : Byte) :
    (suspendSlots set s).suspended i = (s.suspended i || s.kept.slotMeets set i) := by
  simp [State.suspended, suspendSlots, h]

/-- The actions beside HOLD_SOC reach the indicator, the slots, the vault's list and the store, and nothing else. -/
theorem actionsBesideHold_eq : actionsBesideHold actions s =
    { s with
      biu := (showPattern actions s).biu
      keys := (suspendSlots (suspendSet actions) s).keys
      vault := if .ownerReset ∈ actions then s.vault.awaitsReset else s.vault
      store := { s.store with waiting := s.store.waiting ++
        if .recoveryNext ∈ actions then [⟨.recoveryNext true, .reactionWrite false⟩] else [] } } := by
  unfold actionsBesideHold
  rw [showPattern_eq]
  simp only [List.contains_iff_mem, awaitReset_vault]
  by_cases reset : .ownerReset ∈ actions <;> by_cases recovery : .recoveryNext ∈ actions <;>
    simp [reset, recovery, State.handOver, suspendSlots]

end Actions

/-- An event that matches entries and holds no SoC anew: the entries fire, REACTION is raised, and the actions beside HOLD_SOC are carried
out (R160, R161). -/
theorem fire_matched {condition : Condition} {count : Nat} {s : State} (matched : s.matching condition count ≠ [])
    (h : .holdSoc ∉ s.actionsOf (s.matching condition count) ∨ s.held = true) :
    fire condition count s = { s with
      reactions := (markFired (s.matching condition count) s).reactions
      link := { s.link with flags := s.link.flags ||| Flag.reaction.set }
      biu := (showPattern (s.actionsOf (s.matching condition count)) s).biu
      keys := (suspendSlots (suspendSet (s.actionsOf (s.matching condition count))) s).keys
      vault := if .ownerReset ∈ s.actionsOf (s.matching condition count) then s.vault.awaitsReset else s.vault
      store := { s.store with waiting := s.store.waiting ++
        if .recoveryNext ∈ s.actionsOf (s.matching condition count) then [⟨.recoveryNext true, .reactionWrite false⟩] else [] } } := by
  rw [fire_some matched, handActions_besideHold (by exact h), actionsBesideHold_eq, showPattern_biu, showPattern_biu]
  rfl

/-! ## BUTTON_HOLD (R148) -/

/-- The press timer with its hold fired, the only change of a hold beside its condition event (R148). -/
def State.holdFires (s : State) : State :=
  { s with biu := { s.biu with press := s.biu.press.map fun p => { p with holdFired := true } } }

theorem buttonHeld_eq (s : State) : buttonHeld s = fire .buttonHold 0 s.holdFires := rfl

/-- BUTTON_HOLD names no failure count, so a hold matches every enabled entry of its condition but a once-entry that has fired (R160). -/
theorem matching_buttonHold {s : State} {i : Nat} {e : ReactionEntry} {mark : Bool} (entry : s.kept.reactions[i]? = some e)
    (marked : s.reactions.fired[i]? = some mark) : (s.matching .buttonHold 0).contains i = true ↔
      e.enabled = true ∧ e.condition = .buttonHold ∧ (e.once = true → mark = false) := by
  rw [matching_contains entry marked]
  simp only [reduceCtorEq, false_implies, true_and]

/-- Settles O43: the condition event of the hold, by the entries it matches and their actions. -/
theorem buttonHoldFiresEveryMatchingEntry : Obligations.ButtonHoldFiresEveryMatchingEntry := by
  intro s p powered pressed timed unfired due released
  have holds : s.holdDue = true := by simp [State.holdDue, pressed, timed, unfired, due]
  have press : s.holdFires.biu.press = some { p with holdFired := true } := by simp only [State.holdFires, pressed, Option.map_some]
  refine ⟨(buttonHeld s).settle, event_occurs buttonHeld powered holds, ?_⟩
  rw [buttonHeld_eq]
  by_cases empty : s.matching .buttonHold 0 = []
  · rw [fire_none (s := s.holdFires) empty]
    exact ⟨press, rfl, rfl, rfl, rfl, rfl, rfl, rfl, rfl, rfl, rfl, fun _ => ⟨rfl, rfl, rfl, rfl, rfl, rfl⟩,
      fun matched => absurd empty matched⟩
  · rw [fire_matched (s := s.holdFires) empty (.inl released), showPattern_biu]
    refine ⟨press, rfl, rfl, rfl, rfl, rfl, rfl, rfl, rfl, rfl, rfl, fun unmatched => absurd unmatched empty, fun _ =>
      ⟨rfl, fun i e mark n entry marked counted => ?_, fun i inTable => ?_, fun resets => ?_, fun stays => ?_, rfl, rfl⟩⟩
    · have fired := markFired_entry (entries := s.matching .buttonHold 0) entry marked counted
      simp only [matching_buttonHold entry marked] at fired
      exact fired
    · exact suspendSlots_suspended s inTable _
    · change .reset ∈ (if .ownerReset ∈ s.actionsOf (s.matching .buttonHold 0) then s.vault.awaitsReset else s.vault).waiting
      rw [if_pos resets]
      exact s.vault.reset_waits
    · exact if_neg stays

end Sys2Proof.Machine
end

section
/-! SUPPORT. Proofs for chapter 8, part 2: the debounced button, and a short press in FAULT_HOLD (R80, R148, R149). -/

namespace Sys2Proof.Machine

/-! ## A press and its release (R148) -/

/-- A short press is a timed one below 2 s with no hold fired. -/
theorem State.shortPress_eq (s : State) :
    s.shortPress = s.biu.press.any (fun p => !p.untimed && !p.holdFired && decide (s.uptime < p.since + 2000)) := by
  unfold State.shortPress
  cases s.biu.press <;> rfl

/-- The button released, its press timer ended (R148). -/
def State.releases (s : State) : State := { s with biu := { s.biu with button := .released, press := none } }

/-- A short press that ends opens the window, raises PRESENCE_OPEN and is reported to the Boot Gate (R149). -/
theorem debouncedRelease_short {s : State} (short : s.shortPress = true) :
    debouncedRelease s = gatePress ((openWindow s.releases).raise .presenceOpen) := by
  simp only [debouncedRelease, short, if_true, State.releases]

/-- The end of another press only ends the press timer. -/
theorem debouncedRelease_long {s : State} (long : s.shortPress = false) : debouncedRelease s = s.releases := by
  simp only [debouncedRelease, long, Bool.false_eq_true, if_false, State.releases]

/-- A level of BTN held for 30 ms is due to be followed. -/
theorem State.levelHeld_of_le {s : State} (h : s.biu.levelSince + 30 ≤ s.uptime) : s.levelHeld = true := decide_eq_true h

/-! ## A short press reported to the Boot Gate (R80) -/

/-- Outside FAULT_HOLD, and with R at 0, the Boot Gate makes nothing of a short press. -/
theorem gatePress_ignored {s : State} (h : s.gate.state ≠ .faultHold ∨ s.recoverySize = 0) : gatePress s = s := by
  refine if_neg fun acts => ?_
  obtain ⟨holds, sized⟩ := acts
  exact h.elim (absurd holds) (Nat.ne_of_gt sized)

/-- The state that a start of measurement by a short press is taken from: the failure count cleared and, in FIELD, RECOVERY_NEXT handed to the
store (R80). -/
def State.asksRecovery (s : State) : State :=
  { s with
    gate := { s.gate with failures := 0 }
    store := if s.kept.lifecycle = .field then
      { s.store with waiting := s.store.waiting ++ [⟨.recoveryNext true, .silent⟩] } else s.store }

theorem gatePress_starts {s : State} (holds : s.gate.state = .faultHold) (sized : 0 < s.recoverySize) :
    gatePress s = startOfMeasurement true s.asksRecovery := by
  simp only [gatePress, holds, sized, and_self, if_true, State.asksRecovery, State.handOver]
  congr 1
  split <;> rfl

/-- A start of measurement ends the boot alike from a state whose window has just been opened: it closes the window and clears the flags
(R67, R156, R175). -/
theorem BootEnded.before_window {shortPress : Bool} {flag : Flag} {s t : State}
    (h : BootEnded shortPress ((openWindow s).raise flag) t) : BootEnded shortPress s t where
  toBootStopped := h.toBootStopped.from_same rfl rfl rfl rfl rfl rfl rfl (.inl rfl) rfl rfl rfl rfl rfl rfl
  badRun := h.badRun
  fires := h.fires
  press := h.press
  vaultWaiting := h.vaultWaiting

/-- A short press in FAULT_HOLD with R above 0 ends in a start of measurement, which undoes the opening of the window (R80, R149). -/
theorem shortRelease_ends {s : State} (short : s.shortPress = true) (holds : s.gate.state = .faultHold) (sized : 0 < s.recoverySize) :
    BootEnded true s.releases.asksRecovery (debouncedRelease s).settle := by
  rw [debouncedRelease_short short, gatePress_starts (s := (openWindow s.releases).raise .presenceOpen) holds sized]
  exact (startOfMeasurement_ended true _).before_window (s := s.releases.asksRecovery)

/-- Settles O55: the level, the press, a release that the Boot Gate does not act on, and one that it does. -/
theorem buttonIsDebouncedAndTimed : Obligations.ButtonIsDebouncedAndTimed := by
  refine ⟨fun s pressed powered changes => ?_, fun s powered down fresh held => ?_, fun s powered up fresh held quiet => ?_,
    fun s powered up fresh held holds sized short => ?_⟩
  · exact ⟨(btnLevel pressed s).settle, by simp [exec, execBtnLevelChange, changes, powered], rfl⟩
  · refine ⟨_, event_occurs debouncedPress powered ?_, rfl⟩
    simp [State.pressDue, down, fresh, State.levelHeld_of_le held]
  · refine ⟨_, event_occurs debouncedRelease powered ?_, ?_⟩
    · simp [State.releaseDue, up, fresh, State.levelHeld_of_le held]
    rw [← State.shortPress_eq]
    split
    · next short =>
      have ignored : s.gate.state ≠ .faultHold ∨ s.recoverySize = 0 := by simpa [short] using quiet
      rw [debouncedRelease_short short, gatePress_ignored (s := (openWindow s.releases).raise .presenceOpen) ignored]
      rfl
    · next long =>
      rw [debouncedRelease_long (Bool.eq_false_iff.2 long)]
      rfl
  · refine ⟨_, event_occurs debouncedRelease powered ?_, ?_⟩
    · simp [State.releaseDue, up, fresh, State.levelHeld_of_le held]
    rw [← State.shortPress_eq] at short
    exact shortRelease_ends short holds sized

end Sys2Proof.Machine
end

section
/-! SUPPORT. Proofs for chapter 8, part 3: the window and the sources run out, every event leaves IND as the sources have it, and SET INDICATOR
(R150, R152, R153, R154, R157). -/

namespace Sys2Proof.Machine

/-! ## The window and the sources (R150, R153) -/

theorem Biu.source_withSource (b : Biu) (which other : IndSource) (source : Source) :
    (b.withSource which source).source other = if other = which then source else b.source other := by
  cases which <;> cases other <;> rfl

theorem Biu.withSource_window (b : Biu) (which : IndSource) (source : Source) : (b.withSource which source).window = b.window := by
  cases which <;> rfl

/-- The end of a period of a generating source (R153). -/
theorem Source.periodEnd_generating {source : Source} {g : Generating} (h : source.current = some g) :
    source.periodEnd =
      match source.staged with
      | some p => ⟨some ⟨p, p.repeats, g.start + g.pattern.period⟩, none⟩
      | none =>
        if g.pattern.repeats = 0 then ⟨some { g with start := g.start + g.pattern.period }, none⟩
        else if 1 < g.remaining then
          ⟨some { g with remaining := g.remaining - 1, start := g.start + g.pattern.period }, none⟩
        else ⟨none, none⟩ := by
  obtain ⟨current, staged⟩ := source
  cases h
  cases staged <;> rfl

/-! ## IND (R154) -/

/-- Every event of a part that then has power leaves its pins as they follow its state, or changes nothing (log entries 5 and 29). -/
theorem exec_settles {c : Instr} {s t : State} (h : exec c s = .next t) (powered : t.powered = true) :
    t = s ∨ ∃ u : State, t = u.settle := by
  cases c with
  | powerOn landed => exact .inr ⟨_, (Host.Outcome.next.inj h).symm⟩
  | powerLoss landed =>
    obtain rfl := Host.Outcome.next.inj h
    split at powered
    · cases powered
    · next dark => exact .inl (if_neg dark)
  | btnLevelChange pressed =>
    obtain rfl := Host.Outcome.next.inj h
    split
    · exact .inl rfl
    · split
      · exact .inr ⟨_, rfl⟩
      · next changes dark =>
        rw [if_neg changes, if_neg dark] at powered
        exact absurd powered dark
  | _ => exact event_settles h

/-- IND is lit while the generating source of the highest rank is in its on-time: the reaction source, then the presence source, then the
host's (R154). -/
theorem State.indLit_eq (s : State) : s.indLit =
    match s.biu.reaction.current, s.biu.presence.current, s.biu.host.current with
    | some g, _, _ => decide (s.uptime < g.start + g.pattern.onTime)
    | none, some g, _ => decide (s.uptime < g.start + g.pattern.onTime)
    | none, none, some g => decide (s.uptime < g.start + g.pattern.onTime)
    | none, none, none => false := by
  cases reaction : s.biu.reaction.current with
  | some g => simp [State.indLit, Biu.shown, Biu.source, Source.inOnTime, reaction]
  | none =>
    cases presence : s.biu.presence.current with
    | some g => simp [State.indLit, Biu.shown, Biu.source, Source.inOnTime, reaction, presence]
    | none =>
      cases host : s.biu.host.current <;>
        simp [State.indLit, Biu.shown, Biu.source, Source.inOnTime, reaction, presence, host]

/-- Settles O56: each of the three events by its condition and its effect, and IND by the end of every event. -/
theorem windowPeriodsAndOnTimeRunOut : Obligations.WindowPeriodsAndOnTimeRunOut := by
  refine ⟨fun s closing powered opened due => ?_, fun s which g powered generates due => ?_, fun s powered lit dark => ?_,
    fun c s t runs powered => ?_, State.indLit_eq⟩
  · exact ⟨_, event_occurs closeWindow powered (by simp [reached, opened, due]), rfl, rfl⟩
  · refine ⟨_, event_occurs (endPeriod which) powered (by simp [Source.periodOver, generates, due]), rfl,
      fun other distinct => ?_, ?_, rfl, ?_⟩
    · exact (Biu.source_withSource _ _ _ _).trans (if_neg distinct)
    · exact Biu.withSource_window _ _ _
    · exact (Biu.source_withSource _ _ _ _).trans ((if_pos rfl).trans (Source.periodEnd_generating generates))
  · exact ⟨_, event_occurs id powered (by simp [State.onTimeOver, lit, dark]), rfl, dark⟩
  · rcases exec_settles runs powered with same | ⟨u, rfl⟩
    · exact .inl same
    · exact .inr u.settle_ind

/-! ## SET INDICATOR (R152, R153, R157) -/

/-- A heard request that its service answers OK has changed nothing but the button unit's record as given. -/
theorem request_answered_biu {s : State} {identity : Byte} {payload : Bytes} {code : Req} {serve : Nat → Bytes → State → State}
    {biu : Biu} {bytes : Bytes} (h : s.Hears identity payload) (hr : checkRight code identity.toNat payload s = .ok ())
    (hv : code.usesVault payload = false) (hs : ∀ u, Serving s code identity payload u →
      serve identity.toNat payload u = answer .ok bytes { u with biu := biu }) :
    ∃ t, event true (request code serve identity payload) s = .next t ∧ t.biu = biu ∧ t.Answers identity .ok bytes ∧ Quiet s t ∧
      t.store = s.store := by
  obtain ⟨u, hu, runs⟩ := request_serves (serve := serve) h hr hv
  have asks : ({ u with biu := biu } : State).asker = identity := hu.asker
  have sent := answers_sent (payload.length + 7) .ok bytes { u with biu := biu }
  rw [hs u hu] at runs
  rw [asks] at sent
  exact ⟨_, runs, rfl, sent, { hu.toQuiet with }, hu.store⟩

theorem readPattern_le16 {period onTime : Nat} (hp : period < 65536) (ho : onTime < 65536) (repeats : Byte) :
    readPattern (le16 period ++ le16 onTime ++ [repeats]) = some ⟨period, onTime, repeats.toNat⟩ := by
  rw [readPattern, List.append_assoc, takeNumber_le16 _ _ hp]
  simp [takeNumber_le16 _ _ ho]

/-- PATTERN carries the pattern as given, and is served with it as taken (R152, R157). -/
theorem serveSetIndicator_pattern {period onTime : Nat} (hp : period < 65536) (ho : onTime < 65536) (repeats : Byte) (identity : Nat)
    (u : State) :
    serveSetIndicator identity (1 :: (le16 period ++ le16 onTime ++ [repeats])) u =
      setHostPattern (Pattern.taken ⟨period, onTime, repeats.toNat⟩) u := by
  have read : readIndicator (1 :: (le16 period ++ le16 onTime ++ [repeats])) = some (some ⟨period, onTime, repeats.toNat⟩) := by
    simp only [readIndicator, Option.bind_eq_bind, takeNumber_one, Option.bind_some]
    exact congrArg (Option.map some) (readPattern_le16 hp ho repeats)
  simp only [serveSetIndicator, read, layout_some, Checked.bind_ok, Checked.pure_eq, served_ok]

theorem serveSetIndicator_clear (identity : Nat) (u : State) : serveSetIndicator identity [0] u = clearHost u := rfl

/-- A source that is given a pattern takes it where it is absent, and stages it otherwise (R153). -/
theorem Source.give_eq (now : Nat) (p : Pattern) (source : Source) :
    source.give now p =
      match source.current with
      | none => ⟨some ⟨p, p.repeats, now⟩, none⟩
      | some g => ⟨some g, some p⟩ := by
  obtain ⟨current, staged⟩ := source
  cases current <;> rfl

theorem Source.give_generates (now : Nat) (p : Pattern) (source : Source) : (source.give now p).current.isSome = true := by
  rw [Source.give_eq]
  cases source.current <;> rfl

/-- The host source has the lowest rank: it is shown where it generates and no other source does (R154). -/
theorem Biu.shown_host (b : Biu) :
    (b.shown == some .host) = (b.host.current.isSome && (b.reaction.current.isNone && b.presence.current.isNone)) := by
  unfold Biu.shown
  cases b.reaction.current <;> cases b.presence.current <;> cases b.host.current <;> rfl

/-- The reply to a pattern carries it as taken, whether it was taken at once, and whether the host source is now shown. -/
theorem setHostPattern_eq (p : Pattern) (u : State) :
    setHostPattern p u = answer .ok (p.bytes ++ [yesNo u.biu.host.current.isNone,
        yesNo (u.biu.reaction.current.isNone && u.biu.presence.current.isNone)])
      { u with biu := { u.biu with host := u.biu.host.give u.uptime p } } := by
  simp only [setHostPattern, Biu.shown_host, Source.give_generates, Bool.true_and]

/-- A host source that is cleared is not shown. -/
theorem clearHost_eq (u : State) : clearHost u = answer .ok [0] { u with biu := { u.biu with host := ⟨none, none⟩ } } := by
  simp only [clearHost, Biu.shown_host, Source.absent, Option.isSome_none, Bool.false_and, yesNo, Bool.false_eq_true, if_false]

/-- A pattern as a reply carries it has the repeat count that the request gave. -/
theorem Pattern.bytes_taken (period onTime : Nat) (repeats : Byte) :
    (Pattern.taken ⟨period, onTime, repeats.toNat⟩).bytes = le16 (Pattern.taken ⟨period, onTime, repeats.toNat⟩).period ++
      le16 (Pattern.taken ⟨period, onTime, repeats.toNat⟩).onTime ++ [repeats] := by
  rw [Pattern.bytes, show (Pattern.taken ⟨period, onTime, repeats.toNat⟩).repeats = repeats.toNat from rfl, byteOf_toNat]

/-- A heard PATTERN gives the host source the pattern as taken, and is answered with it. -/
theorem setIndicator_gives {s : State} {identity repeats : Byte} {period onTime : Nat} {p : Pattern} (hp : period < 65536)
    (ho : onTime < 65536) (taken : Pattern.taken ⟨period, onTime, repeats.toNat⟩ = p)
    (h : s.Hears identity (1 :: (le16 period ++ le16 onTime ++ [repeats]))) :
    ∃ t, exec (.setIndicatorPattern identity (1 :: (le16 period ++ le16 onTime ++ [repeats]))) s = .next t ∧
      t.biu = { s.biu with host := s.biu.host.give s.uptime p } ∧
      t.Answers identity .ok (p.bytes ++ [yesNo s.biu.host.current.isNone,
        yesNo (s.biu.reaction.current.isNone && s.biu.presence.current.isNone)]) ∧ Quiet s t ∧ t.store = s.store :=
  request_answered_biu (serve := serveSetIndicator) h (checkRight_free nofun rfl rfl) rfl fun u hu => by
    rw [serveSetIndicator_pattern hp ho, taken, setHostPattern_eq, hu.biu, hu.uptime]

/-- A heard CLEAR makes the host source absent, and is answered. -/
theorem setIndicator_clears {s : State} {identity : Byte} (h : s.Hears identity [0]) :
    ∃ t, exec (.setIndicatorClear identity [0]) s = .next t ∧ t.biu = { s.biu with host := ⟨none, none⟩ } ∧
      t.Answers identity .ok [0] ∧ Quiet s t ∧ t.store = s.store :=
  request_answered_biu (serve := serveSetIndicator) h (checkRight_free nofun rfl rfl) rfl fun u hu => by
    rw [serveSetIndicator_clear, clearHost_eq, hu.biu]

/-- Settles O57: PATTERN with the pattern as taken written out, and CLEAR. -/
theorem setIndicatorGivesOrClearsTheHostSource : Obligations.SetIndicatorGivesOrClearsTheHostSource := by
  refine ⟨fun s identity repeats period onTime hp ho h => ?_, fun s identity h => setIndicator_clears h⟩
  obtain ⟨t, runs, biu, answers, rest⟩ := setIndicator_gives hp ho rfl h
  rw [Pattern.bytes_taken, List.append_assoc] at answers
  exact ⟨t, runs, _, rfl, rfl, rfl,
    biu.trans (congrArg (fun host => { s.biu with host := host }) (Source.give_eq _ _ _)), answers, rest⟩

end Sys2Proof.Machine
end

section
/-! SUPPORT. Proofs for chapter 9, part 1: REACTION READ (R164). -/

namespace Sys2Proof.Machine

/-! ## Blocks of one length in a reply -/

section Blocks

variable {α : Type} {f : α → Bytes} {n : Nat}

/-- The bytes of a list each of whose items takes one length. -/
theorem length_flatMap_blocks {l : List α} (block : ∀ a ∈ l, (f a).length = n) : (l.flatMap f).length = n * l.length := by
  rw [List.length_flatMap, List.map_congr_left block, List.map_const', List.sum_replicate_nat, Nat.mul_comm]

/-- The block of an item begins after those of the items before it. -/
theorem slice_flatMap_blocks {before after : List α} {a : α} (block : ∀ b ∈ before ++ [a], (f b).length = n) :
    slice (n * before.length) n ((before ++ a :: after).flatMap f) = f a := by
  have drops : (before.flatMap f).length = n * before.length :=
    length_flatMap_blocks fun b hb => block b (List.mem_append_left _ hb)
  rw [slice, ← drops, List.flatMap_append, List.drop_left, List.flatMap_cons]
  exact List.take_left' (block a (by simp))

end Blocks

/-- The indices below a bound, about one of them. -/
theorem range_about {i n : Nat} (h : i < n) : List.range n = List.range i ++ i :: List.range' (i + 1) (n - i - 1) := by
  have succeeds : List.range' i (n - i) = i :: List.range' (i + 1) (n - i - 1) := by
    rw [← List.range'_succ, Nat.sub_add_cancel (Nat.sub_pos_of_lt h)]
  have joins := List.range'_append_1 (s := 0) (m := i) (n := n - i)
  rw [Nat.zero_add, Nat.add_sub_cancel' (Nat.le_of_lt h), succeeds] at joins
  rw [List.range_eq_range', List.range_eq_range', joins]

/-! ## The entries as the reply carries them -/

/-- An entry with its mark and count, byte by byte (R164). -/
theorem State.reactionBytes_eq {s : State} {i n : Nat} {e : ReactionEntry} {mark : Bool} (entry : s.kept.reactions[i]? = some e)
    (fired : s.reactions.fired[i]? = some mark) (counted : s.reactions.counts[i]? = some n) :
    s.reactionBytes i =
      [byteOf i, yesNo e.enabled, e.condition.code, e.action.code, byteOf (e.threshold.getD 0), e.action.patternByte,
        e.action.identitySet, yesNo e.once, yesNo mark, byteOf n] := by
  simp only [State.reactionBytes, entry, fired, counted]
  rfl

/-- Every entry of the table takes ten bytes. -/
theorem State.reactionBytes_length (s : State) : ∀ i ∈ List.range 8, (s.reactionBytes i).length = 10 := by
  intro i hi
  have inTable : i < 8 := List.mem_range.1 hi
  rw [State.reactionBytes_eq (Vector.getElem?_eq_getElem inTable) (Vector.getElem?_eq_getElem inTable)
    (Vector.getElem?_eq_getElem inTable)]
  rfl

/-- The bytes of the table that the reply carries (R164). -/
def State.tableBytes (s : State) : Bytes := (List.range 8).flatMap s.reactionBytes

theorem State.tableBytes_length (s : State) : s.tableBytes.length = 80 := length_flatMap_blocks s.reactionBytes_length

theorem State.slice_tableBytes (s : State) {i : Nat} (h : i < 8) : slice (10 * i) 10 s.tableBytes = s.reactionBytes i := by
  have about := range_about h
  have block : ∀ j ∈ List.range i ++ [i], (s.reactionBytes j).length = 10 := fun j hj =>
    s.reactionBytes_length j (by rw [about, List.append_cons]; exact List.mem_append_left _ hj)
  have found := slice_flatMap_blocks (after := List.range' (i + 1) (8 - i - 1)) block
  rwa [List.length_range, ← about] at found

theorem serveReactionRead_nil (identity : Nat) (u : State) : serveReactionRead identity [] u = answer .ok u.tableBytes u := rfl

/-- The table is read from the records and from the marks and counts. -/
theorem State.tableBytes_same {s u : State} (kept : u.kept = s.kept) (reactions : u.reactions = s.reactions) :
    u.tableBytes = s.tableBytes := by
  have bytes : u.reactionBytes = s.reactionBytes := by
    funext i
    simp only [State.reactionBytes, kept, reactions]
  rw [State.tableBytes, bytes, State.tableBytes]

/-- Settles O2: the reply that changes nothing, and each entry's ten bytes within it. -/
theorem reactionReadShowsEveryEntry : Obligations.ReactionReadShowsEveryEntry := by
  intro s identity h
  obtain ⟨t, runs, replies⟩ := request_answered (serve := serveReactionRead) (code := .reactionRead) h
    (checkRight_free nofun rfl rfl) rfl fun u hu => by
      rw [serveReactionRead_nil, State.tableBytes_same hu.kept hu.reactions]
  refine ⟨t, s.tableBytes, runs, replies, s.tableBytes_length, fun i e mark n entry fired counted => ?_⟩
  rw [s.slice_tableBytes (Vector.getElem?_eq_some_iff.1 entry).1, State.reactionBytes_eq entry fired counted]

end Sys2Proof.Machine
end

section
/-! SUPPORT. Proofs for chapter 9, part 2: the condition event of the silence watch, and the scan timer with the round that it starts (R85, R86,
R87, R160, R191). -/

namespace Sys2Proof.Machine

/-! ## The silence watch (R85) -/

/-- The state whose silence watch has stopped, with SILENCE raised: the one that the condition event is taken from. -/
def State.fallsSilent (s : State) : State := State.raise .silence { s with gate := { s.gate with silence := none } }

theorem silenceExpired_eq (s : State) : silenceExpired s = fire .linkSilence 0 s.fallsSilent := rfl

/-- A silence watch that runs out is stopped, and its condition event ends no boot (R85, R160). -/
theorem silenceWatch_runsOut {s : State} (powered : s.powered = true) (running : s.gate.state = .running)
    (due : reached s.gate.silence s.uptime = true) (released : .holdSoc ∉ s.actionsOf (s.matching .linkSilence 0)) :
    exec .silenceWatchExpiry s = .next (silenceExpired s).settle ∧ Fired .linkSilence 0 s.fallsSilent (silenceExpired s) :=
  ⟨event_occurs silenceExpired powered (by simp [running, due]), fire_fired (s := s.fallsSilent) (.inl released)⟩

/-! ## Jobs of the scan join the list (R49, R87, R191) -/

/-- The jobs of a set of regions are those of its marked regions, in set order. -/
theorem regionJobs_eq (purpose : Purpose) (marked : Region → Bool) (regions : List Region) :
    regionJobs purpose marked regions = (regions.zipIdx.filter fun (r, _) => marked r).map fun (r, i) =>
      ⟨purpose, r.start, r.length, r.length, some r.digest, i⟩ := by
  unfold regionJobs
  induction regions.zipIdx with
  | nil => rfl
  | cons first rest ih =>
    obtain ⟨r, i⟩ := first
    cases h : marked r <;> simp [h, ih]

/-- The jobs of one purpose stand in their order, the placed before the unplaced, where others of it join. -/
theorem placeAll_own {p : Purpose} {jobs : List Job} (own : ∀ j ∈ jobs, j.purpose = p) (r : FlashReader) :
    (placeAll jobs r).2.entries.filter (·.purpose == p) ++ (placeAll jobs r).1 = r.entries.filter (·.purpose == p) ++ jobs := by
  have all {l : List Job} (h : ∀ j ∈ l, j.purpose = p) : l.filter (·.purpose == p) = l :=
    List.filter_eq_self.2 fun j hj => beq_iff_eq.2 (h j hj)
  have order := congrArg (List.filter (·.purpose == p)) (placeAll_order jobs r)
  rwa [List.filter_append, List.filter_append, all own, all fun j hj => own j (mem_placeAll hj)] at order

/-- The reader's list with the jobs of the Boot Gate and of Image Acceptance that find an entry free: the one that the scan's jobs join. -/
def State.othersPlaced (s : State) : FlashReader := (placeAll s.image.unplaced.toList (placeAll s.gate.unplaced s.reader).2).2

theorem refill_reader (s : State) : (refill s).reader = (placeAll s.gate.unplacedScans s.othersPlaced).2 := rfl

theorem refill_unplacedScans (s : State) : (refill s).gate.unplacedScans = (placeAll s.gate.unplacedScans s.othersPlaced).1 := by
  unfold refill BootGate.unplacedScans
  cases s.gate.scanRound <;> rfl

/-- The other blocks' jobs leave those of the scan in the list. -/
theorem othersPlaced_scans {s : State} (h : s.JobsMatch) :
    s.othersPlaced.entries.filter (·.purpose == .scan) = s.reader.entries.filter (·.purpose == .scan) := by
  rw [State.othersPlaced,
    placeAll_other (p := .scan) (q := .imageVerify) (by decide) _ _ fun j hj => h.verified j (Option.mem_toList.1 hj),
    placeAll_other (p := .scan) (q := .bootMeasure) (by decide) _ _ h.measured]

/-- The round's jobs keep their order where every requester places what it can. -/
theorem refill_scans {s : State} (h : s.JobsMatch) :
    (refill s).reader.entries.filter (·.purpose == .scan) ++ (refill s).gate.unplacedScans =
      s.reader.entries.filter (·.purpose == .scan) ++ s.gate.unplacedScans := by
  rw [refill_reader, refill_unplacedScans, placeAll_own h.scanned, othersPlaced_scans h]

/-- The round's jobs keep their order where a reader that is idle starts a job besides. -/
theorem pump_scans {s : State} (h : s.JobsMatch) :
    (pump s).reader.entries.filter (·.purpose == .scan) ++ (pump s).gate.unplacedScans =
      s.reader.entries.filter (·.purpose == .scan) ++ s.gate.unplacedScans := by
  rw [← refill_scans h, ← FlashReader.start_order .scan (refill s).reader]
  rfl

/-! ## The start of a round (R87) -/

/-- A round begun, with none of its jobs placed. -/
def State.roundBegun (s : State) : State :=
  { s with gate := { s.gate with scanRound := some ⟨s.scanJobs.length, s.scanJobs, false⟩ } }

theorem startRound_skips {s : State} {current : ScanRound} (h : s.gate.scanRound = some current) :
    startRound s = { s with gate := { s.gate with
      scanRecord := { s.gate.scanRecord with skips := saturating 255 s.gate.scanRecord.skips } } } := by
  simp only [startRound, h]

theorem startRound_empty {s : State} (h : s.gate.scanRound = none) (empty : s.scanJobs = []) : startRound s = roundDone s := by
  simp only [startRound, h, empty, List.isEmpty_nil, if_true]

theorem startRound_begins {s : State} (h : s.gate.scanRound = none) (jobs : s.scanJobs ≠ []) : startRound s = pump s.roundBegun := by
  simp only [startRound, h, List.isEmpty_iff, jobs, if_false, State.roundBegun]

/-- A round that begins has its jobs behind those that stand, in set order, and is otherwise as it was begun. -/
theorem pump_roundBegun {s : State} (h : s.JobsMatch) :
    ∃ begun, (pump s.roundBegun).gate.scanRound = some begun ∧ begun.left = s.scanJobs.length ∧ begun.mismatched = false ∧
      (pump s.roundBegun).reader.entries.filter (·.purpose == .scan) ++ (pump s.roundBegun).gate.unplacedScans =
        s.reader.entries.filter (·.purpose == .scan) ++ s.scanJobs := by
  have begun : s.roundBegun.JobsMatch := ⟨h.measured, fun _ hj => scanJobs_purpose hj, h.verified⟩
  exact ⟨_, rfl, rfl, rfl, pump_scans begun⟩

/-- A round that starts, or is skipped, leaves the scan timer, the Boot Gate's state and all outside the scan and the reader. -/
theorem startRound_frame (s : State) :
    (startRound s).gate.scanTimer = s.gate.scanTimer ∧ (startRound s).gate.state = s.gate.state ∧ (startRound s).kept = s.kept ∧
      (startRound s).store = s.store ∧ (startRound s).link = s.link ∧ (startRound s).ism = s.ism ∧
      (startRound s).uptime = s.uptime := by
  unfold startRound
  split
  · exact ⟨rfl, rfl, rfl, rfl, rfl, rfl, rfl⟩
  · split <;> exact ⟨rfl, rfl, rfl, rfl, rfl, rfl, rfl⟩

/-! ## The scan timer (R86) -/

/-- The state whose scan timer has its next expiry: the one that a round is started from. -/
def State.rearmed (s : State) : State :=
  { s with gate := { s.gate with scanTimer := s.gate.scanTimer.bind fun timer => nextScan timer s.kept.params.scanPeriod } }

theorem scanExpiry_eq (s : State) : scanExpiry s = startRound s.rearmed := rfl

theorem State.rearmed_scanTimer {s : State} {timer : ScanTimer} (h : s.gate.scanTimer = some timer) :
    s.rearmed.gate.scanTimer = if 0 < s.kept.params.scanPeriod then
      some ⟨s.kept.params.scanPeriod, timer.next + 60000 * s.kept.params.scanPeriod⟩ else none := by
  simp only [State.rearmed, h, Option.bind_some, nextScan]

theorem State.rearmed_jobsMatch {s : State} (h : s.JobsMatch) : s.rearmed.JobsMatch := ⟨h.measured, h.scanned, h.verified⟩

/-- A scan timer that is due expires in RUNNING. -/
theorem scanTimer_expires {s : State} {timer : ScanTimer} (powered : s.powered = true) (running : s.gate.state = .running)
    (timed : s.gate.scanTimer = some timer) (due : timer.next ≤ s.uptime) :
    exec .scanTimerExpiry s = .next (startRound s.rearmed).settle :=
  event_occurs scanExpiry powered (by simp [running, State.scanDue, timed, reached, due])

/-- Settles O41: the watch by its condition event, the jobs by the set's regions, and the timer by the round that it finds. -/
theorem silenceAndScanTimersRunOut : Obligations.SilenceAndScanTimersRunOut := by
  refine ⟨fun s powered running due released => ?_, fun s b booted => ?_, fun s timer jobs powered running timed due => ?_⟩
  · obtain ⟨runs, fired⟩ := silenceWatch_runsOut powered running due released
    refine ⟨_, runs, fired.gate, fired.link, fired.kept, fired.ism, fired.engine, fired.reader, fired.uptime, fun empty => ?_⟩
    rw [silenceExpired_eq, fire_none (s := s.fallsSilent) empty]
    exact ⟨rfl, rfl, rfl, rfl, rfl⟩
  · rw [State.scanJobs, booted]
    exact regionJobs_eq .scan (·.scan) b.regions
  · obtain ⟨timer_stands, state_stands, frame⟩ := startRound_frame s.rearmed
    refine ⟨_, scanTimer_expires powered running timed due, timer_stands.trans (State.rearmed_scanTimer timed), ?_,
      state_stands.trans running, frame⟩
    cases round : s.gate.scanRound with
    | some current =>
      rw [startRound_skips (s := s.rearmed) round]
      exact ⟨round, rfl, rfl⟩
    | none =>
      by_cases empty : s.scanJobs = []
      · rw [startRound_empty (s := s.rearmed) round empty]
        simp only [empty, if_true]
        exact ⟨rfl, rfl, rfl⟩
      · rw [startRound_begins (s := s.rearmed) round empty]
        simp only [empty, if_false]
        exact ⟨rfl, pump_roundBegun (State.rearmed_jobsMatch jobs)⟩

end Sys2Proof.Machine
end

section
/-! SUPPORT. Proofs for chapter 9, part 3: the writes of the Reaction Table, the policy patterns and the requester table, from the frame to the
completion (R27, R152, R155, R159, R165, R166, R182). -/

namespace Sys2Proof.Machine

/-! ## Step 6 (R170) -/

/-- The writes of the tables pass step 6 with ADMIN, and do not use the vault. -/
theorem tableRequest_granted {s : State} {code : Req} {identity : Byte} (payload : Bytes)
    (hc : code ∈ [.requesterWrite, .reactionWrite, .patternWrite]) (hr : s.hasRight identity.toNat rightAdmin = true) :
    checkRight code identity.toNat payload s = .ok () ∧ code.usesVault payload = false := by
  simp only [List.mem_cons, List.not_mem_nil, or_false] at hc
  rcases hc with rfl | rfl | rfl <;> exact ⟨checkRight_held (by decide) rfl (by decide) hr, rfl⟩

/-! ## The requester table (R27) -/

/-- A record that leaves identity 0 enabled with ceiling LOADER, and some enabled identity with ADMIN (R27 checks 2 and 3). -/
def Records.MayRequest (r : Records) (target : Nat) (record : Requester) : Prop :=
  (target = 0 → record.enabled = true ∧ record.ceiling = .loader) ∧ someAdmin (r.requesters.setIfInBounds target record) = true

theorem Records.checkRequester_ok {r : Records} {target : Nat} {record : Requester} (h : r.MayRequest target record) :
    r.checkRequester target record = .ok () := by
  obtain ⟨loader, admin⟩ := h
  have first : (target != 0 || (record.enabled && record.ceiling == .loader)) = true := by
    by_cases zero : target = 0
    · simp [zero, loader zero]
    · simp [zero]
  rw [Records.checkRequester, first, admin]
  rfl

theorem Records.checkRequester_refused {r : Records} {target : Nat} {record : Requester} (h : ¬ r.MayRequest target record) :
    r.checkRequester target record = .error .badArgument := by
  unfold Records.checkRequester
  cases first : (target != 0 || (record.enabled && record.ceiling == .loader)) with
  | false => rfl
  | true =>
    have loader : target = 0 → record.enabled = true ∧ record.ceiling = .loader := by
      intro zero
      simpa [zero] using first
    rw [Bool.eq_false_iff.2 fun admin => h ⟨loader, admin⟩]
    rfl

/-- A requester record that is written replaces the one it names (R182). -/
theorem Records.apply_requesterPut {r : Records} {i : Nat} {q : Requester} (h : r.MayRequest i q) :
    r.apply (.requesterPut i q) = { r with requesters := r.requesters.setIfInBounds i q } :=
  Records.apply_ok (Records.checkRequester_ok h)

/-- REQUESTER WRITE of a record that can be read hands it over, where both checks hold (R27). -/
theorem serveRequesterWrite_read {payload : Bytes} {target : Nat} {record : Requester} (h : readRequester payload = some (target, record))
    (identity : Nat) (u : State) :
    serveRequesterWrite identity payload u = served (do
      u.kept.checkRequester target record
      pure (u.handOver (.requesterPut target record) (.reply payload))) u := by
  rw [serveRequesterWrite, h]
  rfl

theorem requesterWrite_hands {s : State} {identity : Byte} {payload : Bytes} {target : Nat} {record : Requester}
    (h : s.Hears identity payload) (hr : s.hasRight identity.toNat rightAdmin = true)
    (read : readRequester payload = some (target, record)) (may : s.kept.MayRequest target record) :
    ∃ t, exec (.requesterWrite identity payload) s = .next t ∧
      Hands s .requesterWrite identity payload (.requesterPut target record) (.reply payload) s.biu t := by
  obtain ⟨right, vault⟩ := tableRequest_granted (code := .requesterWrite) payload (by decide) hr
  exact request_hands (serve := serveRequesterWrite) h right vault fun u hu => by
    rw [serveRequesterWrite_read read, hu.kept, Records.checkRequester_ok may]
    rfl

theorem requesterWrite_refused {s : State} {identity : Byte} {payload : Bytes} {target : Nat} {record : Requester}
    (h : s.Hears identity payload) (hr : s.hasRight identity.toNat rightAdmin = true)
    (read : readRequester payload = some (target, record)) (mayNot : ¬ s.kept.MayRequest target record) :
    ∃ t, exec (.requesterWrite identity payload) s = .next t ∧ Replies s identity .badArgument [] t := by
  obtain ⟨right, vault⟩ := tableRequest_granted (code := .requesterWrite) payload (by decide) hr
  exact request_refused h serveRequesterWrite right vault fun u hu => by
    rw [serveRequesterWrite_read read, hu.kept, Records.checkRequester_refused mayNot]
    rfl

/-! ## The policy patterns (R152, R155, R166) -/

/-- A pattern that is written is the one of its number, and no other changes (R166). -/
theorem Records.pattern_patternPut {n : Nat} (low : 1 ≤ n) (high : n ≤ 4) (r : Records) (p : Pattern) :
    (r.written (.patternPut n p)).pattern n = p := by
  have inTable : n - 1 < 4 := by omega
  simp [Records.pattern, Records.written, inTable]

theorem Records.pattern_patternPut_other {n m : Nat} (hn : 1 ≤ n) (hm : 1 ≤ m) (other : m ≠ n) (r : Records) (p : Pattern) :
    (r.written (.patternPut n p)).pattern m = r.pattern m := by
  have apart : n - 1 ≠ m - 1 := by omega
  simp [Records.pattern, Records.written, Vector.getElem?_setIfInBounds_ne, apart]

/-- A new pattern 3 is given to the presence source of an open window, as continuous (R155, R166). -/
theorem patternWritten_biu (n : Nat) (p : Pattern) (s : State) :
    patternWritten n (s.withWritten (.patternPut n p)) = { s.withWritten (.patternPut n p) with
      biu := if n = 3 ∧ s.biu.window.isSome = true then
          { s.biu with presence := s.biu.presence.give s.uptime { p with repeats := 0 } }
        else s.biu } := by
  by_cases opened : n = 3 ∧ s.biu.window.isSome = true
  · have given : (s.kept.written (.patternPut n p)).presencePattern = { p with repeats := 0 } := by
      rw [opened.1, Records.presencePattern, Records.pattern_patternPut (by decide) (by decide)]
    have gives : patternWritten n (s.withWritten (.patternPut n p)) = { s.withWritten (.patternPut n p) with
        biu := { s.biu with presence := s.biu.presence.give s.uptime (s.kept.written (.patternPut n p)).presencePattern } } :=
      if_pos opened
    rw [gives, given, if_pos opened]
  · have stands : patternWritten n (s.withWritten (.patternPut n p)) = s.withWritten (.patternPut n p) := if_neg opened
    rw [stands, if_neg opened]
    rfl

/-- PATTERN WRITE carries its pattern's number and the pattern as given (R166). -/
theorem readPatternWrite_le16 {n : Byte} {period onTime : Nat} (low : 1 ≤ n.toNat) (high : n.toNat ≤ 4) (hp : period < 65536)
    (ho : onTime < 65536) (repeats : Byte) :
    readPatternWrite (n :: (le16 period ++ le16 onTime ++ [repeats])) = some (n.toNat, ⟨period, onTime, repeats.toNat⟩) := by
  simp only [readPatternWrite, Option.bind_eq_bind, takeNumber_one, Option.bind_some, readPattern_le16 hp ho, low, high, and_self,
    if_true, Option.pure_def]

/-- A heard PATTERN WRITE hands the pattern over as it is taken, and is to be answered with it (R152, R166). -/
theorem patternWrite_hands {s : State} {identity n repeats : Byte} {period onTime : Nat} {p : Pattern} (hp : period < 65536)
    (ho : onTime < 65536) (low : 1 ≤ n.toNat) (high : n.toNat ≤ 4) (hr : s.hasRight identity.toNat rightAdmin = true)
    (taken : Pattern.taken ⟨period, onTime, repeats.toNat⟩ = p)
    (h : s.Hears identity (n :: (le16 period ++ le16 onTime ++ [repeats]))) :
    ∃ t, exec (.patternWrite identity (n :: (le16 period ++ le16 onTime ++ [repeats]))) s = .next t ∧
      Hands s .patternWrite identity (n :: (le16 period ++ le16 onTime ++ [repeats])) (.patternPut n.toNat p) (.reply (n :: p.bytes))
        s.biu t := by
  obtain ⟨right, vault⟩ := tableRequest_granted (code := .patternWrite) (n :: (le16 period ++ le16 onTime ++ [repeats])) (by decide) hr
  exact request_hands (serve := servePatternWrite) h right vault fun u _ => by
    rw [← taken]
    simp only [servePatternWrite, readPatternWrite_le16 low high hp ho, layout_some, Checked.bind_ok, Checked.pure_eq, served_ok,
      byteOf_toNat]

/-! ## The Reaction Table (R159, R165) -/

/-- A heard REACTION WRITE of a well-formed entry hands it over as it is carried. -/
theorem reactionWrite_hands {s : State} {identity : Byte} {payload : Bytes} {i : Nat} {e : ReactionEntry} (h : s.Hears identity payload)
    (hr : s.hasRight identity.toNat rightAdmin = true) (read : readReaction payload = some (i, e)) :
    ∃ t, exec (.reactionWrite identity payload) s = .next t ∧
      Hands s .reactionWrite identity payload (.reactionPut i e) (.reply payload) s.biu t := by
  obtain ⟨right, vault⟩ := tableRequest_granted (code := .reactionWrite) payload (by decide) hr
  exact request_hands (serve := serveReactionWrite) h right vault fun u _ => by
    rw [serveReactionWrite, read]
    rfl

theorem reactionWrite_refused {s : State} {identity : Byte} {payload : Bytes} (h : s.Hears identity payload)
    (hr : s.hasRight identity.toNat rightAdmin = true) (unread : readReaction payload = none) :
    ∃ t, exec (.reactionWrite identity payload) s = .next t ∧ Replies s identity .badArgument [] t := by
  obtain ⟨right, vault⟩ := tableRequest_granted (code := .reactionWrite) payload (by decide) hr
  exact request_refused h serveReactionWrite right vault fun u _ => by
    rw [serveReactionWrite, unread]
    rfl

/-- Code 4 alone names BUTTON_HOLD. -/
theorem Condition.ofCode_buttonHold {n : Nat} (h : Condition.ofCode n = some .buttonHold) : n = 4 := by
  unfold Condition.ofCode at h
  split at h <;> simp_all

/-- OWNER_RESET stands with no condition but BUTTON_HOLD (R159). -/
theorem readReaction_ownerReset {condition : Byte} (other : condition ≠ 4) (index enabled threshold once : Byte) :
    readReaction [index, enabled, condition, 5, threshold, 0, 0, once] = none := by
  have action : readAction 5 0 0 = some .ownerReset := rfl
  cases read : readReaction [index, enabled, condition, 5, threshold, 0, 0, once] with
  | none => rfl
  | some entry =>
    simp only [readReaction, action, Option.bind_eq_bind, Option.bind_eq_some_iff, Option.some.injEq, exists_eq_left',
      Option.ite_none_right_eq_some, forall_const] at read
    obtain ⟨_, _, _, _, named, names, _, _, ⟨_, held⟩, _⟩ := read
    rw [held] at names
    exact absurd (BitVec.eq_of_toNat_eq (Condition.ofCode_buttonHold names)) other

/-- A completed REACTION WRITE has its entry in the table, unmarked and uncounted, and no other changed (R162, R165). -/
theorem reactionPut_completes {s : State} {i : Nat} {e : ReactionEntry} {payload : Bytes} (hp : s.powered = true) (inTable : i < 8)
    (hg : s.gate.selection = .idle) (hm : s.store.making = some ⟨.reactionPut i e, .reply payload⟩) :
    ∃ t, exec .storeWriteComplete s = .next t ∧ t.kept.reactions[i]? = some e ∧ t.reactions.fired[i]? = some false ∧
      t.reactions.counts[i]? = some 0 ∧
      (∀ j, j ≠ i → t.kept.reactions[j]? = s.kept.reactions[j]? ∧ t.reactions.fired[j]? = s.reactions.fired[j]? ∧
        t.reactions.counts[j]? = s.reactions.counts[j]?) ∧
      t.Answers s.asker .ok payload :=
  ⟨_, complete_answers hp hm rfl (u := clearEntry i (s.withWritten (.reactionPut i e))) rfl hg rfl,
    Vector.getElem?_setIfInBounds_self_of_lt inTable, Vector.getElem?_setIfInBounds_self_of_lt inTable,
    Vector.getElem?_setIfInBounds_self_of_lt inTable,
    fun _ other => ⟨Vector.getElem?_setIfInBounds_ne other.symm, Vector.getElem?_setIfInBounds_ne other.symm,
      Vector.getElem?_setIfInBounds_ne other.symm⟩,
    answer_answers _ _ _⟩

/-- Settles O58: each table by its record under the write, its request and its completion. -/
theorem tableWritesReplaceOneEntry : Obligations.TableWritesReplaceOneEntry := by
  refine ⟨fun r i q inTable loader admin => ?_, fun r n p low high => ?_, fun s n p payload hp hg hm => ?_,
    fun s identity payload i e h hr read => reactionWrite_hands h hr read,
    fun s identity index enabled condition threshold once h hr other =>
      reactionWrite_refused h hr (readReaction_ownerReset other index enabled threshold once),
    fun s i e payload hp inTable hg hm => reactionPut_completes hp inTable hg hm,
    fun s identity n repeats period onTime hp ho low high hr h => ?_, fun s identity payload target r h hr read => ?_⟩
  · rw [Records.apply_requesterPut ⟨loader, admin⟩]
    exact ⟨Vector.getElem?_setIfInBounds_self_of_lt inTable, fun j other => Vector.getElem?_setIfInBounds_ne other.symm, rfl⟩
  · rw [Records.apply_patternPut]
    exact ⟨Records.pattern_patternPut low high r p, fun m hm other => Records.pattern_patternPut_other low hm other r p, rfl⟩
  · refine ⟨_, complete_answers hp hm rfl (patternWritten_biu n p s) hg rfl, rfl, answer_answers _ _ _, ?_⟩
    exact congrArg (fun presence => if n = 3 ∧ s.biu.window.isSome = true then { s.biu with presence := presence } else s.biu)
      (Source.give_eq _ _ _)
  · obtain ⟨t, runs, hands⟩ := patternWrite_hands hp ho low high hr rfl h
    rw [Pattern.bytes_taken] at hands
    exact ⟨t, runs, _, rfl, rfl, rfl, hands⟩
  · split
    · next may => exact requesterWrite_hands h hr read may
    · next mayNot => exact requesterWrite_refused h hr read mayNot

end Sys2Proof.Machine
end

section
/-! SUPPORT. Proofs for chapter 10, part 1: the transactions that leave the request in service, and polls (R167, R172, R173, R175). -/

namespace Sys2Proof.Machine

section Transactions

variable {s : State} {b : Began} {m : LinkMoment}

/-! ## Transactions that are ignored (R167, R175) -/

/-- The sync byte with a byte after it begins a request frame. -/
theorem isFrame_sync {rest : Bytes} (h : rest ≠ []) : isFrame (0xA5 :: rest) = true := by
  cases rest with
  | nil => exact absurd rfl h
  | cons byte rest => simp [isFrame]

theorem State.ignores_begunHeld (began : s.whenBegan b = some m) (held : m.held = true) (received : Bytes) :
    s.ignores received b = true := by
  simp only [State.ignores, began, held, Bool.true_or]

theorem State.ignores_short (began : s.whenBegan b = some m) {received : Bytes} (short : received = [] ∨ received = [0xA5]) :
    s.ignores received b = true := by
  rcases short with rfl | rfl <;> simp [State.ignores, began]

theorem State.ignores_cut (began : s.whenBegan b = some m) (idle : m.state = .idle) (cut : s.heldSince b = true) {frame : Bytes}
    (whole : isFrame frame = true) : s.ignores frame b = true := by
  simp [State.ignores, began, idle, cut, whole]

/-- An ignored transaction leaves everything but what LINK_DO has sent. -/
theorem ignored_leaves {received : Bytes} (powered : s.powered = true) (began : s.whenBegan b = some m)
    (ignored : s.ignores received b = true) :
    ∃ t, exec (.linkTransactionIgnored ⟨received, b⟩) s = .next t ∧ t = { s with pins := t.pins } ∧
      t.pins.linkDo = s.sentBytes b m (List.replicate received.length 0xEE) :=
  ⟨_, exec_ignored powered began ignored, rfl, rfl⟩

/-! ## Overruns (R173) -/

theorem State.overruns_serving (began : s.whenBegan b = some m) (free : m.held = false) (serving : m.state ≠ .idle) {frame : Bytes}
    (whole : isFrame frame = true) : s.overruns frame b = true := by
  simp [State.overruns, began, free, serving, whole]

/-- Settles O47: each transaction is ignored or an overrun by the moment that it began in, and sends what that moment gives. -/
theorem ignoredAndOverrunFramesLeaveTheRequest : Obligations.IgnoredAndOverrunFramesLeaveTheRequest := by
  refine ⟨fun s received b m powered began held => ?_, fun s received b m powered began free uncut short => ?_,
    fun s rest b m powered began free idle cut more within => ?_, fun s rest b m powered began free serving more => ?_⟩
  · obtain ⟨t, runs, leaves, sent⟩ := ignored_leaves powered began (State.ignores_begunHeld began held received)
    exact ⟨t, runs, leaves, by rw [sent, State.sentBytes_begunHeld held, List.length_replicate]⟩
  · obtain ⟨t, runs, leaves, sent⟩ := ignored_leaves powered began (State.ignores_short began short)
    exact ⟨t, runs, leaves, by rw [sent, State.sentBytes_free free uncut]⟩
  · obtain ⟨t, runs, leaves, sent⟩ := ignored_leaves powered began (State.ignores_cut began idle cut (isFrame_sync more))
    refine ⟨t, runs, leaves, ?_⟩
    rw [sent, State.sentBytes_cut free cut, List.take_replicate, List.length_replicate, List.length_cons, Nat.min_eq_left within]
  · refine ⟨_, exec_overrun powered began (State.overruns_serving began free serving (isFrame_sync more)), rfl, fun uncut => ?_⟩
    exact State.sentBytes_free free uncut _

/-! ## Polls (R172) -/

theorem LinkMoment.pollBytes_notReady (unready : m.state ≠ .ready) {n : Nat} (clocked : 0 < n) :
    m.pollBytes n = 0xEE :: List.replicate (n - 1) 0xFF := by
  have waits : m.pollBytes n = (0xEE :: List.replicate (n - 1) 0xFF).take n := by
    unfold LinkMoment.pollBytes
    split
    · next ready _ => exact absurd ready unready
    · rfl
  have length : (0xEE :: List.replicate (n - 1) 0xFF : Bytes).length = n := by
    rw [List.length_cons, List.length_replicate, Nat.sub_add_cancel clocked]
  exact waits.trans (List.take_of_length_le (Nat.le_of_eq length))

theorem State.pollTakes_ready (uncut : s.heldSince b = false) (r : Reply) (n : Nat) :
    s.pollTakes b ⟨false, .ready, some r⟩ n = decide (r.frame.length ≤ n) := by
  simp only [State.pollTakes, uncut, Bool.not_false, Bool.true_and]

theorem State.pollTakes_notReady (unready : m.state ≠ .ready) (n : Nat) : s.pollTakes b m n = false := by
  unfold State.pollTakes
  split
  · next ready _ => exact absurd ready unready
  · exact Bool.and_false _

theorem State.pollTakes_held (held : m.held = true ∨ s.heldSince b = true) (n : Nat) : s.pollTakes b m n = false := by
  rcases held with held | held <;> simp [State.pollTakes, held]

/-- A poll that takes no reply leaves everything but what LINK_DO has sent. -/
theorem poll_leaves {n : Nat} (powered : s.powered = true) (began : s.whenBegan b = some m) (left : s.pollTakes b m n = false) :
    ∃ t, exec (.poll ⟨n, b⟩) s = .next t ∧ t = { s with pins := t.pins } ∧ t.pins.linkDo = s.sentBytes b m (m.pollBytes n) :=
  ⟨_, exec_poll_left powered began left, rfl, rfl⟩

/-- What the taking of a reply sends stands, whatever the Boot Gate makes of it. -/
theorem takeReply_pins (s : State) : (takeReply s).pins = s.pins := by
  unfold takeReply
  dsimp only
  split
  · exact startOfMeasurement_pins _ _
  · rfl

theorem takeReply_idle (quiet : s.gate.rebootPending ≠ true) :
    takeReply s = { s with link := { s.link with state := .idle, reply := none } } := if_neg quiet

/-- A pending reboot is taken with the reply: the start of measurement drops the reply itself, so the boot ends as from before the
taking (R82). -/
theorem takeReply_reboots (pending : s.gate.rebootPending = true) (bytes : Bytes) :
    BootEnded false s (takeReply (sends bytes s)).settle := by
  have starts : takeReply (sends bytes s) =
      startOfMeasurement false { sends bytes s with link := { s.link with state := .idle, reply := none } } := if_pos pending
  have ended := startOfMeasurement_ended false { sends bytes s with link := { s.link with state := .idle, reply := none } }
  rw [starts]
  exact
    { toBootStopped := ended.toBootStopped.from_same rfl rfl rfl rfl rfl rfl rfl (.inl rfl) rfl rfl rfl rfl rfl rfl
      badRun := ended.badRun
      fires := ended.fires
      press := ended.press
      vaultWaiting := ended.vaultWaiting }

/-- A poll that a hold cuts sends what it would send up to the hold, and FF from then on. -/
theorem State.sentBytes_cut_getElem? (free : m.held = false) (cut : s.heldSince b = true) {bytes : Bytes}
    (within : b.beforeHold ≤ bytes.length) (i : Nat) :
    (s.sentBytes b m bytes)[i]? =
      if i < b.beforeHold then bytes[i]? else if i < bytes.length then some 0xFF else none := by
  have taken : (bytes.take b.beforeHold).length = b.beforeHold := List.length_take_of_le within
  rw [State.sentBytes_cut free cut]
  by_cases before : i < b.beforeHold
  · rw [if_pos before, List.getElem?_append_left (by rw [taken]; exact before), List.getElem?_take_of_lt before]
  · have inPoll : i - b.beforeHold < bytes.length - b.beforeHold ↔ i < bytes.length := by omega
    rw [if_neg before, List.getElem?_append_right (by omega), taken, List.getElem?_replicate]
    simp only [inPoll]

/-- The poll of a reply carries the frame from its first byte (R172). -/
theorem LinkMoment.pollBytes_ready_getElem? (r : Reply) {i n : Nat} (inPoll : i < n) (inFrame : i < r.frame.length) :
    ((⟨false, .ready, some r⟩ : LinkMoment).pollBytes n)[i]? = r.frame[i]? := by
  change ((r.frame ++ List.replicate (n - r.frame.length) 0xFF).take n)[i]? = _
  rw [List.getElem?_take_of_lt inPoll, List.getElem?_append_left inFrame]

end Transactions

/-- Settles O49: a poll that takes the reply, one that falls short of it, one that finds none, and one in a hold. -/
theorem pollTakesTheReplyWhole : Obligations.PollTakesTheReplyWhole := by
  refine ⟨fun s b r n powered began uncut => ?_, fun s b m n powered began free unready uncut clocked => ?_,
    fun s b m n powered began held within => ?_⟩
  · have takes := State.pollTakes_ready uncut r n
    have sendsAll : ∀ bytes, s.sentBytes b ⟨false, .ready, some r⟩ bytes = bytes := State.sentBytes_free rfl uncut
    by_cases whole : r.frame.length ≤ n
    · rw [decide_eq_true whole] at takes
      refine ⟨_, exec_poll_taken powered began takes, ?_, ?_⟩
      · rw [sendsAll]
        exact congrArg Pins.linkDo (takeReply_pins _)
      · rw [if_pos whole]
        split
        · next pending => exact takeReply_reboots pending _
        · next quiet => rw [takeReply_idle (s := sends _ s) quiet]; rfl
    · rw [decide_eq_false whole] at takes
      obtain ⟨t, runs, leaves, sent⟩ := poll_leaves powered began takes
      refine ⟨t, runs, by rw [sent, sendsAll]; rfl, ?_⟩
      rw [if_neg whole]
      exact leaves
  · obtain ⟨t, runs, leaves, sent⟩ := poll_leaves (n := n) powered began (State.pollTakes_notReady unready n)
    exact ⟨t, runs, leaves, by rw [sent, State.sentBytes_free free uncut, LinkMoment.pollBytes_notReady unready clocked]⟩
  · obtain ⟨t, runs, leaves, sent⟩ := poll_leaves powered began (State.pollTakes_held held n)
    have length := m.pollBytes_length n
    have cut : m.held = false → s.heldSince b = true := fun free => held.resolve_left (Bool.eq_false_iff.1 free)
    have covers : b.beforeHold ≤ (m.pollBytes n).length := by rw [length]; exact within
    refine ⟨t, runs, leaves, ?_, fun begunHeld => ?_, fun free i byte after sentByte => ?_, fun r ready i before inFrame => ?_⟩
    · rw [sent, State.sentBytes_length covers, length]
    · rw [sent, State.sentBytes_begunHeld begunHeld, length]
    · rw [sent, State.sentBytes_cut_getElem? free (cut free) covers, if_neg (Nat.not_lt.2 after)] at sentByte
      split at sentByte
      · exact (Option.some.inj sentByte).symm
      · cases sentByte
    · have free : m.held = false := by rw [ready]
      rw [sent, State.sentBytes_cut_getElem? free (cut free) covers, if_pos before, ready]
      exact LinkMoment.pollBytes_ready_getElem? r (Nat.lt_of_lt_of_le before within) inFrame

end Sys2Proof.Machine
end

section
/-! SUPPORT. Proofs for chapter 10, part 2: frames that fail at the frame level, and the eighth failure in a row (R160, R169, R170, R174). -/

namespace Sys2Proof.Machine

/-! ## Steps 1 to 3 on the bytes of a frame (R170) -/

/-- A frame of fewer than seven bytes has no room for its fields. -/
theorem frameFailure_short {frame : Bytes} (short : frame.length < 7) : frameFailure frame = some .badFrame :=
  if_pos (.inl short)

/-- A frame with room for its fields is checked by its CRC, its length field and its code, in this order. -/
theorem frameFailure_body {body crc : Bytes} (fields : 4 ≤ body.length) (two : crc.length = 2) :
    frameFailure (0xA5 :: (body ++ crc)) =
      if crc ≠ crcBytes body then some .badFrame
      else if number (slice 2 2 body) ≠ body.length - 4 ∨ 1024 < number (slice 2 2 body) then some .badLength
      else if (Req.ofCode (body.getD 0 0)).isNone then some .unknownRequest
      else none := by
  have length : (0xA5 :: (body ++ crc)).length = body.length + 3 := by simp [two]
  have declared : slice 3 2 (0xA5 :: (body ++ crc)) = slice 2 2 body := by
    have inBody : 2 ≤ (body.drop 2).length := by rw [List.length_drop]; omega
    change ((body ++ crc).drop 2).take 2 = (body.drop 2).take 2
    rw [List.drop_append_of_le_length (by omega), List.take_append_of_le_length inBody]
  have code : (0xA5 :: (body ++ crc)).getD 1 0 = body.getD 0 0 := by
    change (body ++ crc).getD 0 0 = _
    rw [List.getD_eq_getElem?_getD, List.getElem?_append_left (by omega), ← List.getD_eq_getElem?_getD]
  have room : ¬ body.length + 3 < 7 := by omega
  have rest : body.length + 3 - 7 = body.length - 4 := by omega
  unfold frameFailure
  simp only [length, declared, code, room, rest, List.drop_succ_cons, List.drop_zero, Nat.add_sub_cancel, List.take_left,
    List.drop_left, false_or, ne_comm]

theorem frameFailure_crc {body crc : Bytes} (fields : 4 ≤ body.length) (two : crc.length = 2) (wrong : crc ≠ crcBytes body) :
    frameFailure (0xA5 :: (body ++ crc)) = some .badFrame := by
  rw [frameFailure_body fields two, if_pos wrong]

/-- The fields of a request frame that its CRC covers: its code, its identity, the length that it declares, and its payload (Formats). -/
def frameBody (code identity : Byte) (declared : Nat) (payload : Bytes) : Bytes := code :: identity :: (le16 declared ++ payload)

/-- A frame with its CRC fails by its length field or, where that holds, by its code. -/
theorem frameFailure_checked (code identity : Byte) {declared : Nat} (payload : Bytes) (fits : declared < 65536) :
    frameFailure (0xA5 :: (frameBody code identity declared payload ++ crcBytes (frameBody code identity declared payload))) =
      if declared ≠ payload.length ∨ 1024 < declared then some .badLength
      else if (Req.ofCode code).isNone then some .unknownRequest
      else none := by
  have length : (frameBody code identity declared payload).length = payload.length + 4 := rfl
  have field : number (slice 2 2 (frameBody code identity declared payload)) = declared := number_le16 declared fits
  have first : (frameBody code identity declared payload).getD 0 0 = code := rfl
  rw [frameFailure_body (by omega) rfl, if_neg fun wrong => wrong rfl, field, first, length, Nat.add_sub_cancel]

/-! ## A frame that fails is read (R170) -/

section Failing

variable {s : State} {frame : Bytes} {status : Status}

/-- A frame that fails while the link is IDLE is answered, and EE is sent for each of its bytes. -/
theorem exec_badFrame (powered : s.powered = true) (running : s.held = false) (idle : s.link.state = .idle)
    (whole : isFrame frame = true) (fails : frameFailure frame = some status) :
    exec (.badFrame frame) s = .next (sendsBusy frame.length (receiveBad frame s)).settle := by
  simp [exec, execBadFrame, event, State.frameFails, frameArrives, powered, running, idle, whole, fails]

theorem receiveBad_refuses (fails : frameFailure frame = some status) (known : status ≠ .unknownRequest) :
    receiveBad frame s = refuseFrame status s := by
  unfold receiveBad
  rw [fails]
  split
  · next same => exact absurd (Option.some.inj same) known
  · next same => rw [Option.some.inj same]
  · next same => cases same

theorem receiveBad_unknown (fails : frameFailure frame = some .unknownRequest) :
    receiveBad frame s = answerAs 0xFF .unknownRequest [] s.acceptFrame := by
  unfold receiveBad
  rw [fails]

/-! ## The bad-frame run (R174) -/

/-- A raise of a run other than 7 is no condition event. -/
theorem burstReached_raised {u : State} (other : s.link.badRun ≠ 7) : burstReached s u = false := by
  simp [burstReached, other]

theorem raiseBadRun_eighth (seven : s.link.badRun = 7) : s.raiseBadRun.link.badRun = 8 := by
  simp only [State.raiseBadRun, seven]
  rfl

theorem burstReached_eighth {u : State} (seven : s.link.badRun = 7) (raised : u.link.badRun = s.raiseBadRun.link.badRun) :
    burstReached s u = true := by
  simp only [burstReached, raised, seven, raiseBadRun_eighth seven, beq_self_eq_true, Bool.and_self]

theorem refuseFrame_raised (other : s.link.badRun ≠ 7) : refuseFrame status s = answerAs 0xFF status [] s.raiseBadRun := by
  simp only [refuseFrame, burstReached_raised other, Bool.false_eq_true, if_false]

theorem refuseFrame_eighth (seven : s.link.badRun = 7) :
    refuseFrame status s = fire .frameErrorBurst 0 (answerAs 0xFF status [] s.raiseBadRun) :=
  if_pos (burstReached_eighth seven rfl)

/-- A frame that fails by its CRC or its length, and not as the eighth in a row, is answered to FF and raises the run. -/
theorem badFrame_refused (powered : s.powered = true) (running : s.held = false) (idle : s.link.state = .idle)
    (other : s.link.badRun ≠ 7) (whole : isFrame frame = true) (fails : frameFailure frame = some status)
    (known : status ≠ .unknownRequest) :
    ∃ t, exec (.badFrame frame) s = .next t ∧ t.Answers 0xFF status [] ∧ t.link.badRun = min (s.link.badRun + 1) 255 ∧
      t.link.flags = s.link.flags ∧ t.gate = s.gate ∧ t.kept = s.kept ∧ t.store = s.store ∧ t.ism = s.ism := by
  refine ⟨_, exec_badFrame powered running idle whole fails, ?_⟩
  rw [receiveBad_refuses fails known, refuseFrame_raised other]
  exact ⟨⟨rfl, rfl, rfl⟩, rfl, rfl, rfl, rfl, rfl, rfl⟩

/-- A frame of an unknown code is answered to FF and clears the run. -/
theorem badFrame_unknown (powered : s.powered = true) (running : s.held = false) (idle : s.link.state = .idle)
    (whole : isFrame frame = true) (fails : frameFailure frame = some .unknownRequest) :
    ∃ t, exec (.badFrame frame) s = .next t ∧ t.Answers 0xFF .unknownRequest [] ∧ t.link.badRun = 0 ∧ t.gate = s.gate := by
  refine ⟨_, exec_badFrame powered running idle whole fails, ?_⟩
  rw [receiveBad_unknown fails]
  exact ⟨⟨rfl, rfl, rfl⟩, rfl, rfl⟩

/-! ## A frame that times out (R169) -/

/-- The limit counts the bytes after the sync byte, and takes the length field once both its bytes are there. -/
theorem frameLimit_sync (received : Bytes) : frameLimit (0xA5 :: received) =
    1000 + 10 * ((if received.length < 4 then 1024 else min 1024 (number (slice 2 2 received))) + 7) := by
  have begun : (0xA5 :: received).length < 5 ↔ received.length < 4 := Nat.succ_lt_succ_iff
  simp only [frameLimit, begun]
  rfl

theorem exec_frameTimeout {received : Bytes} {elapsed : Nat} (powered : s.powered = true) (running : s.held = false)
    (idle : s.link.state = .idle) (more : 1 ≤ received.length) (limit : frameLimit (0xA5 :: received) ≤ elapsed) :
    exec (.frameTimeout (0xA5 :: received) elapsed) s = .next (timeOut (0xA5 :: received) s).settle := by
  refine event_occurs (timeOut (0xA5 :: received)) powered ?_
  simpa [State.timesOut, running, idle, more] using limit

theorem timeOut_raised (other : s.link.badRun ≠ 7) (received : Bytes) :
    timeOut received s = sendsBusy received.length (s.raiseBadRun.raise .linkError) := by
  simp only [timeOut, burstReached_raised other, Bool.false_eq_true, if_false]

theorem timeOut_eighth (seven : s.link.badRun = 7) (received : Bytes) :
    timeOut received s = fire .frameErrorBurst 0 (sendsBusy received.length (s.raiseBadRun.raise .linkError)) :=
  if_pos (burstReached_eighth seven rfl)

/-! ## The eighth failure in a row (R160, R174) -/

/-- The release marker is the Boot Gate's. -/
theorem marker_of_gate {t : State} (gate : t.gate = s.gate) : t.marker = s.marker := by
  simp only [State.marker, gate]

/-- A frame that is refused as the eighth in a row is answered, and is the condition event FRAME_ERROR_BURST. -/
theorem badFrame_eighth (powered : s.powered = true) (running : s.held = false) (idle : s.link.state = .idle)
    (seven : s.link.badRun = 7) (released : .holdSoc ∉ s.actionsOf (s.matching .frameErrorBurst 0)) (whole : isFrame frame = true)
    (fails : frameFailure frame = some status) (known : status ≠ .unknownRequest) :
    ∃ t, exec (.badFrame frame) s = .next t ∧ t.link.badRun = 8 ∧ t.reactions.counts = s.raisedCounts .frameErrorBurst 0 ∧
      t.gate = s.gate ∧ t.kept = s.kept ∧ t.ism = s.ism ∧ t.Answers 0xFF status [] ∧
      t.link.flags = s.link.flags ||| s.reactionFlag .frameErrorBurst 0 := by
  have fired := fire_fired (condition := .frameErrorBurst) (count := 0) (s := answerAs 0xFF status [] s.raiseBadRun) (.inl released)
  have marker := marker_of_gate fired.gate
  refine ⟨_, exec_badFrame powered running idle whole fails, ?_⟩
  rw [receiveBad_refuses fails known, refuseFrame_eighth seven]
  generalize fire .frameErrorBurst 0 (answerAs 0xFF status [] s.raiseBadRun) = u at fired marker
  have run : u.link.badRun = 8 := (congrArg Link.badRun fired.link).trans (raiseBadRun_eighth seven)
  refine ⟨run, fired.counts, fired.gate, fired.kept, fired.ism, ⟨?_, ?_, ?_⟩, congrArg Link.flags fired.link⟩
  · exact congrArg Link.state fired.link
  · exact congrArg Link.request fired.link
  · refine (congrArg Link.reply fired.link).trans (congrArg (fun mark => some (⟨status, mark, 0xFF, []⟩ : Reply)) ?_)
    exact marker.symm

/-- A frame that times out as the eighth in a row leaves the link IDLE, and is the condition event FRAME_ERROR_BURST beside LINK_ERROR. -/
theorem frameTimeout_eighth {received : Bytes} {elapsed : Nat} (powered : s.powered = true) (running : s.held = false)
    (idle : s.link.state = .idle) (seven : s.link.badRun = 7)
    (released : .holdSoc ∉ s.actionsOf (s.matching .frameErrorBurst 0)) (more : 1 ≤ received.length)
    (limit : frameLimit (0xA5 :: received) ≤ elapsed) :
    ∃ t, exec (.frameTimeout (0xA5 :: received) elapsed) s = .next t ∧ t.link.badRun = 8 ∧
      t.reactions.counts = s.raisedCounts .frameErrorBurst 0 ∧ t.gate = s.gate ∧ t.kept = s.kept ∧ t.ism = s.ism ∧
      t.link.state = .idle ∧ t.link.reply = s.link.reply ∧
      t.link.flags = s.link.flags ||| Flag.linkError.set ||| s.reactionFlag .frameErrorBurst 0 := by
  have fired := fire_fired (condition := .frameErrorBurst) (count := 0)
    (s := sendsBusy (0xA5 :: received).length (s.raiseBadRun.raise .linkError)) (.inl released)
  refine ⟨_, exec_frameTimeout powered running idle more limit, ?_⟩
  rw [timeOut_eighth seven]
  generalize fire .frameErrorBurst 0 (sendsBusy (0xA5 :: received).length (s.raiseBadRun.raise .linkError)) = u at fired
  have run : u.link.badRun = 8 := (congrArg Link.badRun fired.link).trans (raiseBadRun_eighth seven)
  exact ⟨run, fired.counts, fired.gate, fired.kept, fired.ism, (congrArg Link.state fired.link).trans idle,
    (congrArg Link.reply fired.link).trans rfl, (congrArg Link.flags fired.link).trans rfl⟩

end Failing

/-- Settles O48: the step that a frame fails at gives its answer, and the raise from 7 to 8 its condition event. -/
theorem framesThatFailAreRefused : Obligations.FramesThatFailAreRefused := by
  have sync : ∀ {bytes : Bytes}, 1 ≤ bytes.length → isFrame (0xA5 :: bytes) = true := fun more =>
    isFrame_sync (List.ne_nil_of_length_pos more)
  refine ⟨fun s body crc powered running idle other two fields wrong => ?_,
    fun s received powered running idle other short more => ?_,
    fun s code identity declared payload powered running idle fits => ?_,
    fun s received elapsed powered running idle other more limit => ?_,
    fun s c status powered running idle seven released failure => ?_⟩
  · have whole := sync (bytes := body ++ crc) (by rw [List.length_append]; omega)
    exact badFrame_refused powered running idle other whole (frameFailure_crc fields two wrong) nofun
  · obtain ⟨t, runs, answers, run, -⟩ := badFrame_refused powered running idle other (isFrame_sync more)
      (frameFailure_short (by rw [List.length_cons]; omega)) nofun
    exact ⟨t, runs, answers, run⟩
  · have fails := frameFailure_checked code identity payload fits
    have whole : isFrame (0xA5 :: (frameBody code identity declared payload ++
      crcBytes (frameBody code identity declared payload))) = true := rfl
    split
    · next length =>
      rw [if_pos length] at fails
      by_cases other : s.link.badRun = 7
      · exact ⟨_, exec_badFrame powered running idle whole fails, fun h => absurd other h⟩
      · obtain ⟨t, runs, answers, run, -, gate, -⟩ := badFrame_refused powered running idle other whole fails nofun
        exact ⟨t, runs, fun _ => ⟨answers, run, gate⟩⟩
    · next length =>
      rw [if_neg length] at fails
      by_cases unknown : Req.ofCode code = none
      · rw [unknown, Option.isNone_none, if_pos rfl] at fails
        obtain ⟨t, runs, answers⟩ := badFrame_unknown powered running idle whole fails
        exact ⟨t, runs, fun _ => answers⟩
      · exact ⟨_, rfl, fun h => absurd h unknown⟩
  · refine ⟨_, exec_frameTimeout powered running idle more (by rwa [frameLimit_sync]), ?_⟩
    rw [timeOut_raised other]
    exact ⟨rfl, rfl, rfl, rfl, rfl⟩
  · rcases failure with ⟨body, crc, rfl, two, fields, wrong, rfl⟩ | ⟨code, identity, declared, payload, fits, length, rfl, rfl⟩ |
      ⟨received, elapsed, rfl, more, limit, rfl⟩
    · have whole := sync (bytes := body ++ crc) (by rw [List.length_append]; omega)
      exact badFrame_eighth powered running idle seven released whole (frameFailure_crc fields two wrong) nofun
    · have fails := frameFailure_checked code identity payload fits
      rw [if_pos length] at fails
      exact badFrame_eighth powered running idle seven released rfl fails nofun
    · exact frameTimeout_eighth powered running idle seven released more limit

end Sys2Proof.Machine
end

section
/-! SUPPORT. Proofs for chapter 10, part 3: a request frame that is ignored or an overrun, and steps 4 to 6 of the check order (R26, R167, R170,
R173, R180). -/

namespace Sys2Proof.Machine

/-! ## A request frame by the link it arrives at (R167) -/

section Arrives

variable {s : State} (code : Req) (serve : Nat → Bytes → State → State) (identity : Byte) (payload : Bytes)

theorem request_held (powered : s.powered = true) (held : s.held = true) :
    event true (request code serve identity payload) s = .next (sendsHeld (payload.length + 7) s).settle := by
  rw [event_occurs _ powered rfl, request, frameArrives, if_pos held]

theorem request_overrun (powered : s.powered = true) (running : s.held = false) (serving : s.link.state ≠ .idle) :
    event true (request code serve identity payload) s =
      .next (overrun (List.replicate (payload.length + 7) 0xEE) s).settle := by
  rw [event_occurs _ powered rfl, request, frameArrives, if_neg (Bool.eq_false_iff.1 running), if_neg serving]

theorem request_received (powered : s.powered = true) (running : s.held = false) (idle : s.link.state = .idle) :
    event true (request code serve identity payload) s =
      .next (sendsBusy (payload.length + 7) (receive code serve identity payload s)).settle := by
  rw [event_occurs _ powered rfl, request, frameArrives, if_neg (Bool.eq_false_iff.1 running), if_pos idle]

end Arrives

/-! ## Identities (R25, R26) -/

section Identities

variable {s : State} {i : Nat} {r : Requester}

theorem State.requester_beyond (above : 7 < i) : s.requester i = none :=
  Vector.getElem?_eq_none above

theorem State.requester_index (record : s.requester i = some r) : i ≤ 7 := by
  refine Nat.le_of_not_lt fun above => ?_
  rw [State.requester_beyond above] at record
  cases record

theorem State.enabled_of_requester (record : s.requester i = some r) : s.enabled i = r.enabled := by
  simp only [State.enabled, record]

theorem State.enabled_beyond (above : 7 < i) : s.enabled i = false := by
  simp only [State.enabled, State.requester_beyond above]

/-- A stage above its ceiling leaves no identity admitted (R26). -/
theorem State.admits_closed (record : s.requester i = some r) (closed : r.ceiling.number < s.ism.stage.number) :
    s.admits i = false := by
  simp only [State.admits, record, decide_eq_false (Nat.not_le.2 closed), Bool.and_false]

end Identities

/-! ## Steps 4 and 5 (R170) -/

section Refused

variable {s : State} {identity : Byte} {payload : Bytes} {code : Req} {serve : Nat → Bytes → State → State}

/-- Step 4 refuses an identity that is not enabled, and answers to FF where there is no such identity. -/
theorem receive_disabled (fits : payload.length ≤ 1024) (disabled : s.enabled identity.toNat = false) :
    receive code serve identity payload s =
      answerAs (if identity.toNat ≤ 7 then identity else 0xFF) .identityDisabled [] s.acceptFrame := by
  have off : s.acceptFrame.enabled identity.toNat = false := disabled
  simp only [receive, Nat.not_lt.2 fits, off, Bool.not_false, if_true, if_false]

/-- Step 5 refuses an enabled identity that the stage does not admit. -/
theorem receive_closed (fits : payload.length ≤ 1024) (enabled : s.enabled identity.toNat = true)
    (closed : s.admits identity.toNat = false) :
    receive code serve identity payload s =
      answerAs (if identity.toNat ≤ 7 then identity else 0xFF) .stageClosed [] s.acceptFrame := by
  have on : s.acceptFrame.enabled identity.toNat = true := enabled
  have shut : s.acceptFrame.admits identity.toNat = false := closed
  simp only [receive, Nat.not_lt.2 fits, on, shut, Bool.not_true, Bool.not_false, Bool.false_eq_true, if_true, if_false]

/-- A frame that is answered without being admitted clears the bad-frame run, and changes nothing beside the link, the LINK context and the
vault's hold. -/
theorem request_unadmitted {answering : Byte} {status : Status} (powered : s.powered = true) (running : s.held = false)
    (idle : s.link.state = .idle)
    (refuses : receive code serve identity payload s = answerAs answering status [] s.acceptFrame) :
    ∃ t, event true (request code serve identity payload) s = .next t ∧ t.Answers answering status [] ∧ t.link.badRun = 0 ∧
      t.gate = s.gate ∧ t.kept = s.kept ∧ t.ism = s.ism ∧ t.store = s.store := by
  refine ⟨_, request_received code serve identity payload powered running idle, ?_⟩
  rw [refuses]
  exact ⟨⟨rfl, rfl, rfl⟩, rfl, rfl, rfl, rfl, rfl⟩

/-! ## Step 6 (R170, R180) -/

/-- A request that needs one of some rights fails step 6 without any of them. -/
theorem checkRight_lacking {right : Nat} {rights : List Nat} {i : Nat} {p : Bytes} (h1 : code ≠ .setParameter)
    (h2 : code.isFactory = false) (h3 : code.rights = right :: rights)
    (lacks : ∀ r ∈ right :: rights, s.hasRight i r = false) : checkRight code i p s = .error .notPermitted := by
  have noRight : (right :: rights).any (s.hasRight i) = false := List.any_eq_false.2 fun r hr => Bool.eq_false_iff.1 (lacks r hr)
  simp only [checkRight, h1, h2, h3, noRight, List.isEmpty_cons, Bool.false_or, Bool.false_eq_true, if_false, check_false]

/-- A heard request that needs one of some rights is refused without any of them. -/
theorem request_lacking {right : Nat} {rights : List Nat} (h : s.Hears identity payload)
    (lacks : ∀ r ∈ right :: rights, s.hasRight identity.toNat r = false) (h1 : code ≠ .setParameter) (h2 : code.isFactory = false)
    (h3 : code.rights = right :: rights) :
    ∃ t, event true (request code serve identity payload) s = .next t ∧ Replies s identity .notPermitted [] t :=
  request_denied h serve (checkRight_lacking h1 h2 h3 lacks)

/-- SET PARAMETER names its parameter, and needs that parameter's right. -/
theorem checkRight_setParameter (i : Nat) (p : Bytes) (s : State) : checkRight .setParameter i p s =
    match namedParam p with
    | none => .error .badArgument
    | some named => check (s.hasRight i named.right) .notPermitted := by
  cases names : namedParam p <;> simp only [checkRight, names, if_true, layout_none, layout_some, Checked.bind_error, Checked.bind_ok]

theorem setParameter_unnamed (h : s.Hears identity payload) (names : namedParam payload = none) :
    ∃ t, exec (.setParameter identity payload) s = .next t ∧ Replies s identity .badArgument [] t :=
  request_denied h _ (by rw [checkRight_setParameter, names])

theorem setParameter_lacking {named : Param} (h : s.Hears identity payload) (names : namedParam payload = some named)
    (lacks : s.hasRight identity.toNat named.right = false) :
    ∃ t, exec (.setParameter identity payload) s = .next t ∧ Replies s identity .notPermitted [] t :=
  request_denied h _ (by simp only [checkRight_setParameter, names, lacks, check_false])

end Refused

/-- Settles O50: each step by its check, step 6 by the rights of each group of requests, and a frame by the link it arrives at. -/
theorem checksFourToSixRefuseInOrder : Obligations.ChecksFourToSixRefuseInOrder := by
  refine ⟨fun s identity powered running idle => ⟨fun off => ?_, fun r record on closed => ?_⟩, fun s identity payload c h denied => ?_,
    fun s identity h => setParameter_unnamed h rfl, fun s identity code rest h => ?_, fun s identity payload powered held =>
      ⟨_, request_held _ _ _ _ powered held, rfl, rfl⟩, fun s identity payload powered running serving =>
      ⟨_, request_overrun _ _ _ _ powered running serving, rfl⟩⟩
  · have disabled : s.enabled identity.toNat = false := by
      rcases off with above | ⟨r, record, off⟩
      · exact State.enabled_beyond above
      · rw [State.enabled_of_requester record, off]
    exact request_unadmitted powered running idle (receive_disabled (Nat.zero_le _) disabled)
  · have refuses := receive_closed (payload := []) (code := .identify) (serve := serveIdentify) (Nat.zero_le _)
      ((State.enabled_of_requester record).trans on) (State.admits_closed record closed)
    rw [if_pos (State.requester_index record)] at refuses
    exact request_unadmitted powered running idle refuses
  · simp only [List.mem_cons, List.not_mem_nil, or_false] at denied
    rcases denied with ⟨manages, admin, owner⟩ | ⟨writes, admin⟩ | ⟨updates, update⟩ | ⟨rfl, update, admin⟩ | ⟨owns, owner⟩
    · have lacks : ∀ r ∈ [rightAdmin, rightOwner], s.hasRight identity.toNat r = false := by simp [admin, owner]
      rcases manages with rfl | rfl | rfl | rfl | rfl | rfl
      all_goals exact request_lacking h lacks nofun rfl rfl
    · have lacks : ∀ r ∈ [rightAdmin], s.hasRight identity.toNat r = false := by simp [admin]
      rcases writes with rfl | rfl | rfl
      all_goals exact request_lacking h lacks nofun rfl rfl
    · have lacks : ∀ r ∈ [rightUpdate], s.hasRight identity.toNat r = false := by simp [update]
      rcases updates with rfl | rfl | rfl | rfl
      all_goals exact request_lacking h lacks nofun rfl rfl
    · have lacks : ∀ r ∈ [rightUpdate, rightAdmin], s.hasRight identity.toNat r = false := by simp [update, admin]
      exact request_lacking h lacks nofun rfl rfl
    · have lacks : ∀ r ∈ [rightOwner], s.hasRight identity.toNat r = false := by simp [owner]
      rcases owns with rfl | rfl | rfl | rfl
      all_goals exact request_lacking h lacks nofun rfl rfl
  · cases names : Param.ofCode code with
    | none => exact setParameter_unnamed h names
    | some named =>
      by_cases lacks : s.hasRight identity.toNat named.right = false
      · obtain ⟨t, runs, replies⟩ := setParameter_lacking h names lacks
        refine ⟨t, runs, ?_⟩
        cases named <;> exact fun _ => replies
      · refine ⟨_, rfl, ?_⟩
        cases named <;> exact fun lacking => absurd lacking lacks

end Sys2Proof.Machine
end

section
/-! SUPPORT. Proofs for chapter 10, part 4: the requests that read without a payload, and the requests of the attention flags (R28, R89, R107, R108,
R130, R151, R176 to R179). -/

namespace Sys2Proof.Machine

/-! ## Requests that read (R28, R89, R107, R108, R130, R151, R179) -/

/-- A heard request that holds a free vault, and that its service answers, has changed nothing (R145). -/
theorem request_answered_vault {s : State} {identity : Byte} {payload : Bytes} {code : Req} {serve : Nat → Bytes → State → State}
    {status : Status} {bytes : Bytes} (h : s.Hears identity payload) (hr : checkRight code identity.toNat payload s = .ok ())
    (hv : code.usesVault payload = true) (hf : s.vault.free = true)
    (hs : ∀ u, Serving s code identity payload u → serve identity.toNat payload u = answer status bytes u) :
    ∃ t, event true (request code serve identity payload) s = .next t ∧ Replies s identity status bytes t := by
  have serving := inService_serving_vault hf code identity payload
  refine ⟨_, request_granted_vault h serve hr hv hf, ?_⟩
  rw [hs _ serving]
  exact serving.replies _ _ _

section Figures

variable {s u : State} {code : Req} {identity : Byte} {payload : Bytes}

/-- The identities admitted are read from the requester table and the stage (R26). -/
theorem Serving.admittedSet (hu : Serving s code identity payload u) : u.admittedSet = s.admittedSet := by
  have admits : u.admits = s.admits := by
    funext i
    simp only [State.admits, State.requester, hu.kept, hu.ism]
  simp only [State.admittedSet, admits]

theorem Serving.identification (hu : Serving s code identity payload u) :
    u.identification identity.toNat =
      [0x01, s.kept.lifecycle.code] ++ padTo 16 (s.kept.serial.take 16) ++
        [identity, s.admittedSet, byteOf s.ism.stage.number, s.admittedGate.state.code, yesNo s.kept.vault.claimed] := by
  simp only [State.identification, hu.kept, hu.ism, hu.gate, hu.admittedSet, byteOf_toNat]

theorem serveIdentify_nil (i : Nat) (u : State) : serveIdentify i [] u = answer .ok (u.identification i) u := rfl

/-- The payload of IMAGE STATUS (R107). -/
def State.imageStatus (s : State) : Bytes :=
  [s.kept.staged.code] ++ knownBytes s.shownFields ++ [byteOf s.shownProgress] ++ s.kept.staged.reasonBytes ++
    s.verificationBytes ++ [byteOf s.kept.selector.tries, s.kept.selector.active.code] ++ le16 s.port.violations

theorem serveImageStatus_nil (i : Nat) (u : State) : serveImageStatus i [] u = answer .ok u.imageStatus u := rfl

theorem Serving.imageStatus (hu : Serving s code identity payload u) : u.imageStatus = s.imageStatus := by
  simp only [State.imageStatus, State.shownFields, State.shownProgress, State.verificationBytes, hu.kept, hu.image, hu.port, hu.uptime]

/-- The payload of SCAN STATUS (R89). -/
def State.scanStatus (s : State) : Bytes :=
  s.scanTimerBytes ++ roundBytes s.gate.scanRound ++ s.gate.scanRecord.bytes ++
    [s.gate.verdict.code, byteOf s.gate.verdict.index, bankCode s.gate.selected, yesNo s.gate.trialBooted]

theorem serveScanStatus_nil (i : Nat) (u : State) : serveScanStatus i [] u = answer .ok u.scanStatus u := rfl

/-- The admission of the frame leaves every figure of the scan (R77, R85). -/
theorem Serving.scanStatus (hu : Serving s code identity payload u) : u.scanStatus = s.scanStatus := by
  obtain ⟨timer, round, record⟩ := admittedGate_scan s
  obtain ⟨verdict, selected, -⟩ := admittedGate_boot s
  have booted : s.admittedGate.trialBooted = s.gate.trialBooted := by rw [← hu.gate, hu.trialBooted]
  simp only [State.scanStatus, State.scanTimerBytes, hu.gate, timer, round, record, verdict, selected, booted, hu.uptime]

/-- The payload of PRESENCE STATUS (R151). -/
def State.presenceStatus (s : State) : Bytes :=
  [yesNo s.biu.window.isSome, byteOf s.windowSeconds, s.biu.button.code, byteOf s.heldSeconds, shownCode s.biu.shown]

theorem servePresenceStatus_nil (i : Nat) (u : State) : servePresenceStatus i [] u = answer .ok u.presenceStatus u := rfl

theorem Serving.presenceStatus (hu : Serving s code identity payload u) : u.presenceStatus = s.presenceStatus := by
  simp only [State.presenceStatus, State.windowSeconds, State.heldSeconds, hu.biu, hu.uptime]

/-- The payload of READ COUNTERS, counter by counter (R108). -/
theorem serveReadCounters_nil (i : Nat) (u : State) : serveReadCounters i [] u =
    answer .ok (le16 (u.kept.counter 0) ++ le16 (u.kept.counter 1) ++ le16 (u.kept.counter 2) ++ le16 (u.kept.counter 3) ++
      [u.kept.selector.active.code] ++ u.kept.goldenA.summary ++ u.kept.goldenB.summary ++ layoutBytes u.kept.layout) u := rfl

theorem serveRequesterRead_nil (i : Nat) (u : State) : serveRequesterRead i [] u =
    answer .ok (u.kept.requesters.toList.flatMap Requester.bytes ++ [byteOf u.ism.stage.number, u.admittedSet]) u := rfl

theorem serveVaultStatus_nil (i : Nat) (u : State) : serveVaultStatus i [] u = answer .ok u.vaultStatus u := rfl

theorem Serving.vaultStatus (hu : Serving s code identity payload u) : u.vaultStatus = s.vaultStatus := by
  have credentials : u.credBytes = s.credBytes := by
    funext i c
    simp only [State.credBytes, VaultUnit.penaltyOf, hu.penalty, State.second, hu.uptime]
  simp only [State.vaultStatus, State.present, hu.kept, hu.biu, credentials]

end Figures

/-- Settles O1: each request by its service, whose figures are the same in the state that serves it. -/
theorem requestsWithoutPayloadAnswerAndChangeNothing : Obligations.RequestsWithoutPayloadAnswerAndChangeNothing := by
  refine ⟨fun s identity h => ?_, fun s identity h => ⟨?_, ?_, ?_⟩, fun s identity h => ?_, fun s identity h => ?_,
    fun s identity h free => ?_⟩
  · exact request_answered h (checkRight_free nofun rfl rfl) rfl fun u hu => by rw [serveIdentify_nil, hu.identification]
  · exact request_answered h (checkRight_free nofun rfl rfl) rfl fun u hu => by rw [serveImageStatus_nil, hu.imageStatus, State.imageStatus]
  · exact request_answered h (checkRight_free nofun rfl rfl) rfl fun u hu => by rw [serveScanStatus_nil, hu.scanStatus, State.scanStatus]
  · exact request_answered h (checkRight_free nofun rfl rfl) rfl fun u hu => by
      rw [servePresenceStatus_nil, hu.presenceStatus, State.presenceStatus]
  · exact request_answered h (checkRight_free nofun rfl rfl) rfl fun u hu => by
      rw [serveReadCounters_nil, hu.kept]
      rfl
  · exact request_answered h (checkRight_free nofun rfl rfl) rfl fun u hu => by
      rw [serveRequesterRead_nil, hu.kept, hu.ism, hu.admittedSet]
      rfl
  · exact request_answered_vault h (checkRight_free nofun rfl rfl) rfl free fun u hu => by
      rw [serveVaultStatus_nil, hu.vaultStatus]
      rfl

/-! ## The attention flags (R176, R177, R178) -/

section Attention

variable {s : State} {identity : Byte} {payload : Bytes}

theorem serveReadAttention_nil (i : Nat) (u : State) : serveReadAttention i [] u =
    answer .ok (le16 u.link.flags.toNat ++ le16 u.link.mask.toNat ++
      [yesNo u.alertLevel, byteOf u.link.badRun, byteOf u.link.overruns]) u := rfl

/-- ALERT is the level of the flags in the mask (R176). -/
theorem Serving.alertLevel {u : State} {code : Req} (hu : Serving s code identity payload u) : u.alertLevel = s.alertLevel := by
  simp only [State.alertLevel, hu.flags, hu.mask]

/-- The state with the flags and the mask as given. -/
def State.attends (flags mask : BitVec 12) (s : State) : State := { s with link := { s.link with flags := flags, mask := mask } }

/-- CLEAR ATTENTION clears the flags named, and answers with those that are left (R177). -/
theorem serveClearAttention_le16 (i : Nat) (named : BitVec 12) (u : State) : serveClearAttention i (le16 named.toNat) u =
    answer .ok (le16 (u.link.flags &&& ~~~named).toNat) (u.attends (u.link.flags &&& ~~~named) u.link.mask) := by
  rw [serveClearAttention, readMask_le16]
  rfl

/-- SET ALERT MASK replaces the mask, and answers with it (R178). -/
theorem serveSetAlertMask_le16 (i : Nat) (mask : BitVec 12) (u : State) : serveSetAlertMask i (le16 mask.toNat) u =
    answer .ok (le16 mask.toNat) (u.attends u.link.flags mask) := by
  rw [serveSetAlertMask, readMask_le16]
  rfl

theorem serveClearAttention_unread (i : Nat) (unread : readMask payload = none) (u : State) :
    serveClearAttention i payload u = refuse .badArgument u := by
  rw [serveClearAttention, unread]
  rfl

theorem serveSetAlertMask_unread (i : Nat) (unread : readMask payload = none) (u : State) :
    serveSetAlertMask i payload u = refuse .badArgument u := by
  rw [serveSetAlertMask, unread]
  rfl

/-- A heard request that is answered with the flags and the mask as given: ALERT follows in the same event, and nothing else changes
(R176, R177, R178). -/
theorem request_attends {code : Req} {serve : Nat → Bytes → State → State} {bytes : Bytes} {flags mask : BitVec 12}
    (h : s.Hears identity payload) (hr : checkRight code identity.toNat payload s = .ok ()) (hv : code.usesVault payload = false)
    (hs : ∀ u, Serving s code identity payload u → serve identity.toNat payload u = answer .ok bytes (u.attends flags mask)) :
    ∃ t, event true (request code serve identity payload) s = .next t ∧ t.Answers identity .ok bytes ∧ t.link.flags = flags ∧
      t.link.mask = mask ∧ t.pins.alert = (flags &&& mask != 0) ∧ RequestFrame s t ∧ t.gate = s.admittedGate ∧ t.ism = s.ism ∧
      t.engine = s.engine ∧ t.store = s.store ∧ t.biu = s.biu := by
  obtain ⟨u, hu, runs⟩ := request_serves (serve := serve) h hr hv
  have asks : (u.attends flags mask).asker = identity := hu.asker
  have sent := answers_sent (payload.length + 7) .ok bytes (u.attends flags mask)
  rw [hs u hu] at runs
  rw [asks] at sent
  exact ⟨_, runs, sent, rfl, rfl, rfl, { hu.toRequestFrame with }, hu.gate, hu.ism, hu.engine, hu.store, hu.biu⟩

/-- A start of measurement clears the flags and leaves the mask (R175, R178). -/
theorem startOfMeasurement_mask (shortPress : Bool) (s : State) : (startOfMeasurement shortPress s).link.mask = s.link.mask :=
  (congrArg Link.mask (startOfMeasurement_work shortPress s).link).trans rfl

end Attention

/-- Settles O3: each request by its service, and the mask by power-on and by a start of measurement. -/
theorem attentionRequestsReadClearAndMask : Obligations.AttentionRequestsReadClearAndMask := by
  refine ⟨fun s identity h => ?_, fun s identity named h => ?_, fun s identity payload h unfit => ?_, fun s identity mask h => ?_,
    fun s identity payload h unfit => ?_, fun landed s t runs => ?_, startOfMeasurement_mask⟩
  · obtain ⟨t, runs, replies⟩ := request_answered (serve := serveReadAttention) (code := .readAttention) h
      (checkRight_free nofun rfl rfl) rfl fun u hu => by
        rw [serveReadAttention_nil, hu.flags, hu.mask, hu.alertLevel, hu.badRun, hu.overruns]
    exact ⟨t, runs, replies.badRun.symm ▸ replies⟩
  · obtain ⟨t, runs, answers, flags, mask, alert, frame, gate, ism, engine, store, biu⟩ := request_attends
      (serve := serveClearAttention) (code := .clearAttention) h (checkRight_free nofun rfl rfl) rfl fun u hu => by
        rw [serveClearAttention_le16, hu.flags, hu.mask]
    exact ⟨t, runs, answers, flags, alert, frame, gate, ism, engine, store, biu, mask⟩
  · exact request_refused h serveClearAttention (checkRight_free nofun rfl rfl) rfl fun u _ =>
      serveClearAttention_unread _ (readMask_refused payload unfit) u
  · obtain ⟨t, runs, answers, flags, taken, alert, rest⟩ := request_attends (serve := serveSetAlertMask) (code := .setAlertMask) h
      (checkRight_free nofun rfl rfl) rfl fun u hu => by rw [serveSetAlertMask_le16, hu.flags]
    exact ⟨t, runs, answers, taken, flags, alert, fun empty => by simp [alert, empty], rest⟩
  · exact request_refused h serveSetAlertMask (checkRight_free nofun rfl rfl) rfl fun u _ =>
      serveSetAlertMask_unread _ (readMask_refused payload unfit) u
  · rw [← Host.Outcome.next.inj runs]
    exact startOfMeasurement_mask false _

end Sys2Proof.Machine
end

section
/-! SUPPORT. Proofs for chapter 11, part 1: the persistent records change by the item being made alone, and the lives of slots and credential
records never fall (R118 to R120, R182; log entry 53). -/

namespace Sys2Proof.Machine

/-! ## Places and lives (log entry 53) -/

/-- A place of a life that has ended names no slot. -/
theorem Records.slotAt_ended {r : Records} {p : Place} (h : p.life < (r.slotPlace p.index).life) : r.slotAt p = none :=
  if_neg fun same => Nat.ne_of_gt h (congrArg Place.life same)

/-- A place of a life that has ended names no credential record. -/
theorem Records.credAt_ended {r : Records} {p : Place} (h : p.life < (r.credPlace p.index).life) : r.credAt p = none :=
  if_neg fun same => Nat.ne_of_gt h (congrArg Place.life same)

theorem Records.LivesKept.refl (r : Records) : r.LivesKept r := .of_filled rfl rfl (fun _ => id) fun _ => id

/-- No command lowers a life, and one that makes a slot EMPTY or a record not present raises its life. -/
theorem exec_lives {c : Instr} {s t : State} (h : exec c s = .next t) : s.kept.LivesKept t.kept := by
  obtain same | ⟨item, _, made⟩ := exec_records h
  · rw [same]
    exact .refl _
  · rw [made]
    exact Records.apply_lives _ _

/-! ## The commands in which no item is made (R182) -/

/-- An item can be made in a completion of the store, and found landed at power-on and at power loss. -/
def makesItem : Instr → Bool
  | .storeWriteComplete | .powerOn _ | .powerLoss _ => true
  | _ => false

theorem event_sameRecords {condition : Bool} {effect : State → State} {s t : State} (h : event condition effect s = .next t)
    (he : (effect s).kept = s.kept) : t.kept = s.kept := by
  unfold event at h
  obtain rfl := Host.Outcome.next.inj h
  split
  · exact he
  · rfl

theorem request_sameRecords {serve : Nat → Bytes → State → State} (hv : ∀ i p s, Regular s (serve i p s)) {code : Req} {identity : Byte}
    {payload : Bytes} {s t : State} (h : event true (request code serve identity payload) s = .next t) : t.kept = s.kept :=
  event_sameRecords h (request_regular hv code identity payload s).kept

/-- A command in which no item is made leaves the records as they are, whatever the store is making. -/
theorem exec_sameRecords {c : Instr} {s t : State} (hc : makesItem c = false) (h : exec c s = .next t) : t.kept = s.kept := by
  cases c with
  | powerOn | powerLoss | storeWriteComplete => cases hc
  | storeWriteFailed => exact event_sameRecords h (failNow_kept s)
  | bankSelection => exact event_sameRecords h (selectNow_regular s).kept
  | attachDeadlineExpiry | bootCompleteDeadlineExpiry => exact event_sameRecords h (failOrReboot_kept s)
  | holdDwellExpiry | rebootTimerExpiry => exact event_sameRecords h (startOfMeasurement_keeps _ _).kept
  | socRestart => exact event_sameRecords h (socRestarted_kept s)
  | silenceWatchExpiry | buttonHold => exact event_sameRecords h (fire_regular _ _ _).kept
  | scanTimerExpiry => exact event_sameRecords h (scanExpiry_regular s).kept
  | deBlockAbsorbed => exact event_sameRecords h (absorbNow_kept s)
  | frBurstStart => exact event_sameRecords h (startBurst_regular s).kept
  | frBurstComplete bytes => exact event_sameRecords h (burstRead_regular _ _).kept
  | seOperationComplete => exact event_sameRecords h (engineDone_kept s)
  | keyMaterialGenerated => exact event_sameRecords h (materialGenerated_regular s).kept
  | verificationDeadlineExpiry => exact event_sameRecords h (reject_regular _ _).kept
  | socFlashCommand command => exact event_sameRecords h (socCommand_kept _ _)
  | linkTransactionIgnored received => exact event_sameRecords h (ignore_regular _ _ _).kept
  | badFrame frame => exact event_sameRecords h (frameArrives_regular (receiveBad_regular frame) _ _).kept
  | frameTimeout received elapsed => exact event_sameRecords h (timeOut_regular _ _).kept
  | overrun frame => exact event_sameRecords h (overrunFrame_regular _ _ _).kept
  | poll clocked => exact event_sameRecords h (poll_regular _ _ _).kept
  | debouncedRelease => exact event_sameRecords h (debouncedRelease_kept s)
  | storeWriteStart | socFlashForward | socFlashCsRise | debouncedPress | presenceWindowTimeout | patternPeriodEnd | onTimeEnd
  | ownerResetUpdate | decayStep => exact event_sameRecords h rfl
  | btnLevelChange pressed =>
    obtain rfl := Host.Outcome.next.inj h
    (repeat' split) <;> rfl
  | clearAttention => exact request_sameRecords serveClearAttention_regular h
  | setAlertMask => exact request_sameRecords serveSetAlertMask_regular h
  | setParameter => exact request_sameRecords serveSetParameter_regular h
  | keyGenerate => exact request_sameRecords serveKeyGenerate_regular h
  | keyImport => exact request_sameRecords serveKeyImport_regular h
  | keySign => exact request_sameRecords serveKeySign_regular h
  | keyDerive => exact request_sameRecords serveKeyDerive_regular h
  | keyRestrict => exact request_sameRecords serveKeyRestrict_regular h
  | keyRetire => exact request_sameRecords serveKeyRetire_regular h
  | keyErase => exact request_sameRecords serveKeyErase_regular h
  | blobWrite => exact request_sameRecords serveBlobWrite_regular h
  | extendDigest => exact request_sameRecords serveExtendDigest_regular h
  | extendData => exact request_sameRecords serveExtendData_regular h
  | advanceStage => exact request_sameRecords serveAdvanceStage_regular h
  | requesterWrite => exact request_sameRecords serveRequesterWrite_regular h
  | makeStatement => exact request_sameRecords serveMakeStatement_regular h
  | verifyStaged => exact request_sameRecords serveVerifyStaged_regular h
  | abortImage => exact request_sameRecords serveAbortImage_regular h
  | armTrial => exact request_sameRecords serveArmTrial_regular h
  | confirmImage => exact request_sameRecords serveConfirmImage_regular h
  | rebootRouter => exact request_sameRecords serveRebootRouter_regular h
  | vaultClaim => exact request_sameRecords serveVaultClaim_regular h
  | credEnroll => exact request_sameRecords serveCredEnroll_regular h
  | credCheck => exact request_sameRecords serveCredCheck_regular h
  | credChange => exact request_sameRecords serveCredChange_regular h
  | credRemove => exact request_sameRecords serveCredRemove_regular h
  | ownerReset => exact request_sameRecords serveOwnerReset_regular h
  | setIndicatorPattern | setIndicatorClear => exact request_sameRecords serveSetIndicator_regular h
  | reactionWrite => exact request_sameRecords serveReactionWrite_regular h
  | patternWrite => exact request_sameRecords servePatternWrite_regular h
  | provisionSlotGenerate | provisionSlotPublic | provisionSlotBlob | provisionSlotErase =>
    exact request_sameRecords serveProvisionSlot_regular h
  | provisionCredential => exact request_sameRecords serveProvisionCredential_regular h
  | provisionLayout => exact request_sameRecords serveProvisionLayout_regular h
  | provisionGolden => exact request_sameRecords serveProvisionGolden_regular h
  | lockFactory => exact request_sameRecords serveLockFactory_regular h
  | _ => exact request_sameRecords (fun _ _ _ => answered_regular _ _) h

/-! ## The commands in which an item may be made (R182, R190) -/

/-- A write that has not landed leaves the records as stored (R182). -/
theorem keptAfterLoss_lost (s : State) : s.keptAfterLoss false = s.kept := rfl

/-- An unpowered part has nothing to lose; a powered one keeps the records that the loss leaves. -/
theorem exec_powerLoss_kept {landed : Bool} {s t : State} (h : exec (.powerLoss landed) s = .next t) :
    t.kept = s.kept ∨ t.kept = s.keptAfterLoss landed := by
  obtain rfl := Host.Outcome.next.inj h
  split
  · exact .inr rfl
  · exact .inl rfl

theorem exec_powerOn_kept {landed : Bool} {s t : State} (h : exec (.powerOn landed) s = .next t) :
    t.kept = s.keptAfterLoss landed := by
  obtain rfl := Host.Outcome.next.inj h
  exact powerOnFrom_kept _ _ _ _

/-- The records stay, or take the item being made in one of the three events in which an item lands. -/
def State.RecordsTakeItemBy (c : Instr) (s t : State) : Prop :=
  t.kept = s.kept ∨ ∃ item, s.store.making = some item ∧ t.kept = s.kept.apply item.op ∧
    (c = .storeWriteComplete ∨ c = .powerOn true ∨ c = .powerLoss true)

/-- Every command leaves the records, or is one of the three and gives them the item being made (R182). -/
theorem exec_recordsBy {c : Instr} {s t : State} (h : exec c s = .next t) : s.RecordsTakeItemBy c t := by
  cases makes : makesItem c with
  | false => exact .inl (exec_sameRecords makes h)
  | true =>
    refine (exec_records h).elim .inl fun ⟨item, making, made⟩ => ?_
    cases c with
    | storeWriteComplete => exact .inr ⟨item, making, made, .inl rfl⟩
    | powerOn landed =>
      cases landed with
      | true => exact .inr ⟨item, making, made, .inr (.inl rfl)⟩
      | false => exact .inl ((exec_powerOn_kept h).trans (keptAfterLoss_lost s))
    | powerLoss landed =>
      cases landed with
      | true => exact .inr ⟨item, making, made, .inr (.inr rfl)⟩
      | false => exact .inl ((exec_powerLoss_kept h).elim id fun kept => kept.trans (keptAfterLoss_lost s))
    | _ => cases makes

/-- Settles O24: the lives by `exec_lives`, the places by the life that they name, and the records by the commands in which an item is made. -/
theorem onlyTheStoreWritesRecords : Obligations.OnlyTheStoreWritesRecords := by
  refine ⟨fun c s t i h => ?_, fun r p => ⟨fun same => ?_, Records.slotAt_ended, fun same => ?_, Records.credAt_ended⟩,
    fun c s t h => exec_recordsBy h⟩
  · have lives := exec_lives h
    exact ⟨⟨lives.slots i, lives.emptied i⟩, lives.creds i, lives.removed i⟩
  · rw [same]
    exact Records.slotAt_slotPlace r p.index
  · rw [same]
    exact Records.credAt_credPlace r p.index

end Sys2Proof.Machine
end

section
/-! SUPPORT. Proofs for chapter 11, part 2: idle steps, power-on and power loss, and reset (R137, R181, R182, R184, R190). -/

namespace Sys2Proof.Machine

/-! ## Idle steps (R181) -/

theorem step_idle {s : State} (h : s.pending = []) : step s = idleStep s := by
  simp only [step, h]

/-- Without power an idle step is nothing. -/
theorem idleStep_unpowered {s : State} (h : s.powered = false) : idleStep s = .next s := by
  simp only [idleStep, idle, h, Bool.false_eq_true, if_false]

/-- With power an idle step takes the first event that is due. -/
theorem idleStep_due {s : State} {c : Instr} {rest : List Instr} (h : s.powered = true) (hd : s.dueEvents = c :: rest) :
    idleStep s = exec c s := by
  simp only [idleStep, h, State.dueEvent, hd, List.head?_cons]

/-- With power and none due a millisecond passes. -/
theorem idleStep_tick {s : State} (h : s.powered = true) (hd : s.dueEvents = []) : idleStep s = .next (tick s) := by
  simp only [idleStep, idle, h, State.dueEvent, hd, List.head?_nil, if_true]

/-- Settles O17: an idle step by the power and the events due. -/
theorem idleStepLetsTimePass : Obligations.IdleStepLetsTimePass := by
  intro s empty
  rw [step_idle empty]
  exact ⟨fun c rest powered due => idleStep_due powered due, idleStep_tick, idleStep_unpowered⟩

/-! ## The records that a loss of power leaves (R182) -/

theorem keptAfterLoss_eq (landed : Bool) (s : State) :
    s.keptAfterLoss landed = match s.store.making with
      | some item => if landed = true then s.kept.apply item.op else s.kept
      | none => s.kept := by
  unfold State.keptAfterLoss
  cases s.store.making <;> cases landed <;> rfl

/-! ## Power-on (R190) -/

/-- The write that power-on hands to the store: the rejection of a record that it finds VERIFYING (R106, log entry 41). -/
def Records.rejectionAtPowerOn (r : Records) : List StoreItem :=
  if r.staged = .verifying then [⟨.stagedPut (.rejected none 0 .interrupted), .silent⟩] else []

/-- A powered-on part with the writes that wait in its store: every volatile field has its power-on value, but for the penalties and the
selection that is awaited (R67, R137, R190). -/
def poweredOn (waiting : List StoreItem) (kept : Records) (pressed : Bool) (draws : Nat) (pending : List Instr) : State :=
  { imposePenalties (State.volatileReset kept pressed draws pending) with
    gate := { gateAtPowerOn with selection := .awaiting false true }
    store := ⟨none, waiting⟩ }

section PoweredOn

variable (kept : Records) (pressed : Bool) (draws : Nat) (pending : List Instr)

/-- The first start of measurement comes to Image Acceptance's step, which finds no write begun (R67, R68). -/
theorem startOfMeasurement_atPowerOn :
    startOfMeasurement false (imposePenalties (State.volatileReset kept pressed draws pending)) =
      if kept.staged = .verifying then reject .interrupted (poweredOn [] kept pressed draws pending)
      else stopVerification (poweredOn [] kept pressed draws pending) := rfl

/-- The pins of a powered-on part follow its state already. -/
theorem poweredOn_settle (waiting : List StoreItem) :
    (poweredOn waiting kept pressed draws pending).settle = poweredOn waiting kept pressed draws pending := by
  have quiet : (poweredOn waiting kept pressed draws pending).alertLevel = false := by
    change (0 &&& 0xFFF#12 != 0) = false
    decide
  rw [State.settle, quiet]
  rfl

/-- Power-on comes to a powered-on part whose store has the rejection of a record found VERIFYING, and nothing else (R106, R190). -/
theorem powerOnFrom_eq :
    powerOnFrom kept pressed draws pending = poweredOn kept.rejectionAtPowerOn kept pressed draws pending := by
  rw [powerOnFrom, startOfMeasurement_atPowerOn]
  by_cases verifying : kept.staged = .verifying
  · rw [if_pos verifying, Records.rejectionAtPowerOn, if_pos verifying]
    exact poweredOn_settle kept pressed draws pending [_]
  · rw [if_neg verifying, Records.rejectionAtPowerOn, if_neg verifying]
    exact poweredOn_settle kept pressed draws pending []

/-- No slot is suspended at power-on (R7). -/
theorem poweredOn_suspended (waiting : List StoreItem) (i : Nat) : (poweredOn waiting kept pressed draws pending).suspended i = false := by
  by_cases hi : i < 24 <;> simp [State.suspended, poweredOn, imposePenalties, State.volatileReset, hi]

/-- Every decay clock is 0 at power-on (R137). -/
theorem poweredOn_clockOf (waiting : List StoreItem) (i : Nat) :
    (poweredOn waiting kept pressed draws pending).vault.clockOf i = 0 := by
  by_cases hi : i < 16 <;> simp [VaultUnit.clockOf, poweredOn, imposePenalties, State.volatileReset, hi]

/-- Every penalty is that of the stored record, from second 0 (R137). -/
theorem poweredOn_penaltyOf (waiting : List StoreItem) {i : Nat} (hi : i < 16) :
    (poweredOn waiting kept pressed draws pending).vault.penaltyOf i = kept.penaltyAtPowerOn i := by
  simp [VaultUnit.penaltyOf, poweredOn, imposePenalties, State.volatileReset, hi]

end PoweredOn

/-! ## The penalties (R133, R137) -/

/-- A penalty deadline from second 0, where the parameters are in their ranges, is that of the failures above VAULT_FREE (R133, R138). -/
theorem penaltyFrom_zero {v : VaultRecord} (base : 1 ≤ v.base) (cap : 1 ≤ v.cap) (f : Nat) :
    penaltyFrom v 0 f = if f ≤ v.free then none else some (min v.cap (v.base * 2 ^ (f - v.free - 1))) := by
  unfold penaltyFrom penalty
  by_cases few : f ≤ v.free
  · rw [if_pos few, if_pos rfl, if_pos few]
  · have raised : 0 < v.base * 2 ^ (f - v.free - 1) := Nat.mul_pos base (Nat.two_pow_pos _)
    have imposed : min v.cap (v.base * 2 ^ (f - v.free - 1)) ≠ 0 := by omega
    rw [if_neg few, if_neg imposed, if_neg few, Nat.zero_add]

/-- The penalty that power-on imposes on each record, where the parameters are in their ranges (R137). -/
theorem Records.penaltyAtPowerOn_eq {r : Records} (base : 1 ≤ r.vault.base) (cap : 1 ≤ r.vault.cap) (i : Nat) :
    r.penaltyAtPowerOn i = match r.cred i with
      | some c =>
        if c.failures ≤ r.vault.free then none
        else some (min r.vault.cap (r.vault.base * 2 ^ (c.failures - r.vault.free - 1)))
      | none => none := by
  unfold Records.penaltyAtPowerOn
  cases r.cred i with
  | none => rfl
  | some c => exact penaltyFrom_zero base cap c.failures

/-! ## Power loss (R182, R190) -/

theorem exec_powerLoss_powered {s : State} (h : s.powered = true) (landed : Bool) :
    exec (.powerLoss landed) s = .next (unpowered (s.keptAfterLoss landed) s) :=
  congrArg Host.Outcome.next (if_pos h)

theorem exec_powerLoss_unpowered {s : State} (h : s.powered = false) (landed : Bool) : exec (.powerLoss landed) s = .next s :=
  congrArg Host.Outcome.next (if_neg (Bool.eq_false_iff.1 h))

/-- Settles O35: power-on by the powered-on part that it comes to, and power loss by the unpowered part. -/
theorem powerKeepsTheRecordsAndImposesPenalties : Obligations.PowerKeepsTheRecordsAndImposesPenalties := by
  refine ⟨fun landed s => ⟨poweredOn (s.keptAfterLoss landed).rejectionAtPowerOn (s.keptAfterLoss landed) s.biu.pressed s.draws s.pending,
      congrArg Host.Outcome.next (powerOnFrom_eq _ _ _ _), keptAfterLoss_eq landed s, rfl, rfl, rfl, rfl, rfl, rfl, rfl, rfl, rfl, rfl, rfl, rfl,
      rfl, rfl, rfl, rfl, rfl, ⟨rfl, rfl⟩, poweredOn_suspended _ _ _ _ _, rfl, rfl, rfl, poweredOn_clockOf _ _ _ _ _,
      fun base cap i hi => ?_⟩,
    fun landed s powered => ⟨_, exec_powerLoss_powered powered landed, keptAfterLoss_eq landed s, rfl, rfl, rfl, rfl, rfl, rfl, rfl, rfl, rfl⟩,
    fun landed s off => exec_powerLoss_unpowered off landed⟩
  exact (poweredOn_penaltyOf _ _ _ _ _ hi).trans (Records.penaltyAtPowerOn_eq base cap i)

/-! ## Reset (R184, R190) -/

theorem factoryRecords_counter (line : Nat) : factoryRecords.counter line = 0 := by
  simp only [Records.counter, factoryRecords, Vector.getElem?_replicate]
  split <;> rfl

/-- Every chain is 32 zero bytes at a start (R32, R42). -/
theorem ismAtStart_chain (c : Nat) : ismAtStart.chain c = List.replicate 32 0 := by
  simp only [Ism.chain, ismAtStart, Vector.getElem?_replicate]
  split <;> rfl

/-- Reset is the powered-on part of the factory records, which hold no image to reject (log entry 7). -/
theorem reset_poweredOn : State.reset = poweredOn [] factoryRecords false 0 [] :=
  reset_powerOnFrom.trans (powerOnFrom_eq _ _ _ _)

/-- No factory record has a penalty (R137, R184). -/
theorem reset_penaltyOf (i : Nat) : State.reset.vault.penaltyOf i = none := by
  simp only [VaultUnit.penaltyOf, State.reset, State.volatileReset, Vector.getElem?_replicate]
  split <;> rfl

/-- Settles O18: reset by its fields, and its tables by their entries. -/
theorem resetLeavesAFactoryPart : Obligations.ResetLeavesAFactoryPart := by
  have suspended : ∀ i, State.reset.suspended i = false := fun i => by rw [reset_poweredOn, poweredOn_suspended]
  exact ⟨reset_powerOnFrom, rfl, ⟨rfl, rfl, rfl, rfl, rfl, rfl, factoryRecords_slot, factoryRecords_cred, factoryRecords_counter⟩,
    rfl, rfl, rfl, rfl, rfl, rfl, rfl, rfl, rfl, rfl, rfl, rfl, rfl, rfl, rfl, ismAtStart_chain, suspended, rfl, rfl, rfl, rfl, rfl, rfl, rfl,
    rfl, rfl, rfl, rfl, reset_penaltyOf, rfl, rfl, rfl, rfl, rfl, rfl⟩

end Sys2Proof.Machine
end

section
/-! SUPPORT. Proofs for chapter 11, part 3: the store takes its oldest item, makes it or not, and answers (R145, R182, R183). -/

namespace Sys2Proof.Machine

/-! ## The start of a write (R183) -/

theorem StoreUnit.take_oldest {u : StoreUnit} {item : StoreItem} {rest : List StoreItem} (h : u = ⟨none, item :: rest⟩) :
    u.take = ⟨some item, rest⟩ := by
  rw [h]
  rfl

/-- A store that is making nothing starts the oldest item of its list. -/
theorem exec_writeStarts {s : State} {item : StoreItem} {rest : List StoreItem} (hp : s.powered = true)
    (hs : s.store = ⟨none, item :: rest⟩) :
    exec .storeWriteStart s = .next ({ s with store := ⟨some item, rest⟩ } : State).settle := by
  have waits : (s.store.making.isNone && !s.store.waiting.isEmpty) = true := by rw [hs]; rfl
  have starts : startWrite s = { s with store := ⟨some item, rest⟩ } := by rw [startWrite, StoreUnit.take_oldest hs]
  rw [← starts]
  exact congrArg Host.Outcome.next (if_pos (by rw [hp, waits]; rfl))

/-! ## What the effects of a write's end leave (R182, R183) -/

/-- What the end of a write leaves, whatever the write names, until its writer goes on. -/
structure WriteCore where
  store : StoreUnit
  asker : Byte
  selection : Selection
  ism : Ism
  engine : List EngineOp
  reader : FlashReader
  port : FlashPort
  uptime : Nat
  pending : List Instr
  holder : Option VaultWork

def State.writeCore (s : State) : WriteCore :=
  ⟨s.store, s.asker, s.gate.selection, s.ism, s.engine, s.reader, s.port, s.uptime, s.pending, s.vault.holder⟩

theorem completionEffects_writeCore (old : Records) (op : StoreOp) (s : State) :
    (completionEffects old op s).writeCore = s.writeCore := by
  cases op with
  | credPut record =>
    simp only [completionEffects]
    split <;> rfl
  | credValue p value clear restart => cases clear <;> cases restart <;> rfl
  | patternPut number p =>
    simp only [completionEffects, patternWritten]
    split <;> rfl
  | bootParam p n =>
    simp only [completionEffects, paramWritten]
    split <;> rfl
  | stagedPut record => cases record <;> rfl
  | _ => rfl

/-- The effects of a failure raise no flag. -/
theorem failureEffects_writeCore (op : StoreOp) (s : State) :
    (failureEffects op s).writeCore = s.writeCore ∧ (failureEffects op s).link.flags = s.link.flags := by
  cases op with
  | credMatch p | credDecay p interval =>
    simp only [failureEffects, whilePresent]
    split <;> exact ⟨rfl, rfl⟩
  | stagedPut record => cases record <;> exact ⟨rfl, rfl⟩
  | _ => exact ⟨rfl, rfl⟩

/-! ## The answer after a write's end (R145, R183) -/

/-- The request of an item that has ended is answered, which releases the vault where the request holds it; the items that wait, and what
no write names, stand (R145, R182, R183). -/
structure ItemAnswered (s : State) (status : Status) (payload : Bytes) (t : State) : Prop where
  store : t.store = { s.store with making := none }
  answers : t.Answers s.asker status payload
  ism : t.ism = s.ism
  engine : t.engine = s.engine
  reader : t.reader = s.reader
  port : t.port = s.port
  uptime : t.uptime = s.uptime
  pending : t.pending = s.pending
  holder : t.vault.holder = if s.vault.holder = some .request then none else s.vault.holder

/-- An answer after effects that leave what no write names. -/
theorem answer_itemAnswered {s u : State} (h : u.writeCore = (s.itemGone s.kept).writeCore) (status : Status) (payload : Bytes) :
    ItemAnswered s status payload (answer status payload u).settle := by
  simp only [State.writeCore, WriteCore.mk.injEq] at h
  obtain ⟨store, asker, -, ism, engine, reader, port, uptime, pending, holder⟩ := h
  have asks : u.asker = s.asker := asker
  have held : u.vault.holder = s.vault.holder := holder
  exact ⟨store, asks ▸ answer_answers status payload u, ism, engine, reader, port, uptime, pending, by rw [← held]; rfl⟩

section Ends

variable {s : State} {op : StoreOp} {payload : Bytes} (hp : s.powered = true) (hm : s.store.making = some ⟨op, .reply payload⟩)
  (hg : s.gate.selection = .idle)
include hp hm hg

/-- An item whose checks hold is made, and its request has its reply (R182). -/
theorem reply_made (hr : s.kept.recheck op = .ok ()) :
    ∃ t, exec .storeWriteComplete s = .next t ∧ t.kept = s.kept.apply op ∧ ItemAnswered s .ok payload t := by
  have core := completionEffects_writeCore s.kept op (s.withWritten op)
  refine ⟨_, complete_answers hp hm hr rfl ((congrArg WriteCore.selection core).trans hg) rfl, ?_, answer_itemAnswered (core.trans rfl) _ _⟩
  exact (completionEffects_kept _ _ _).trans (Records.apply_ok hr).symm

/-- An item one of whose checks fails is not made, and its request has the reply of that check (log entry 46). -/
theorem reply_refused {status : Status} (hr : s.kept.recheck op = .error status) :
    ∃ t, exec .storeWriteComplete s = .next t ∧ t.kept = s.kept ∧ t.link.flags = s.link.flags ∧ ItemAnswered s status [] t :=
  ⟨_, complete_refuses hp hm hr hg fun _ => rfl, rfl, rfl, answer_itemAnswered rfl _ _⟩

/-- An item that fails is not made, raises STORE_FAULT, and its request has the reply STORE_FAULT (R183). -/
theorem reply_failed :
    ∃ t, exec .storeWriteFailed s = .next t ∧ t.kept = s.kept ∧ t.link.flags = s.link.flags ||| Flag.storeFault.set ∧
      ItemAnswered s .storeFault [] t := by
  obtain ⟨core, flags⟩ := failureEffects_writeCore op ((s.itemGone s.kept).raise .storeFault)
  exact ⟨_, fail_goesOn hp hm rfl ((congrArg WriteCore.selection core).trans hg), failureEffects_kept _ _, flags,
    answer_itemAnswered (core.trans rfl) _ _⟩

end Ends

/-- Settles O32: the start by the store's list, and each end of an item by its answer. -/
theorem storeTakesCompletesAndFailsWrites : Obligations.StoreTakesCompletesAndFailsWrites := by
  refine ⟨fun s item rest hp hs => ⟨_, exec_writeStarts hp hs, rfl⟩, fun s op payload hp hm hg =>
    ⟨fun hr => ?_, fun status hr => ?_, ?_⟩⟩
  · obtain ⟨t, ends, kept, a⟩ := reply_made hp hm hg hr
    exact ⟨t, ends, kept, a.store, a.answers, a.ism, a.engine, a.reader, a.port, a.uptime, a.pending, a.holder⟩
  · obtain ⟨t, ends, kept, flags, a⟩ := reply_refused hp hm hg hr
    exact ⟨t, ends, kept, a.store, a.answers, flags, a.ism, a.engine, a.reader, a.port, a.uptime, a.pending, a.holder⟩
  · obtain ⟨t, ends, kept, flags, a⟩ := reply_failed hp hm hg
    exact ⟨t, ends, kept, a.store, a.answers, flags, a.ism, a.engine, a.reader, a.port, a.uptime, a.pending, a.holder⟩

end Sys2Proof.Machine
end

section
/-! SUPPORT. Proofs for chapter 11, part 4: PROVISION LAYOUT, GOLDEN and CREDENTIAL and LOCK FACTORY (R186 to R189). -/

namespace Sys2Proof.Machine

/-! ## A heard request that holds the vault (R145) -/

/-- The event of a heard request that passes step 6 and finds the vault free is that of its service on a state that serves it. -/
theorem request_serves_vault {s : State} {identity : Byte} {payload : Bytes} {code : Req} {serve : Nat → Bytes → State → State}
    (h : s.Hears identity payload) (hr : checkRight code identity.toNat payload s = .ok ()) (hv : code.usesVault payload = true)
    (hf : s.vault.free = true) :
    ∃ u, Serving s code identity payload u ∧ event true (request code serve identity payload) s =
      .next (sendsBusy (payload.length + 7) (serve identity.toNat payload u)).settle :=
  ⟨_, inService_serving_vault hf code identity payload, request_granted_vault h serve hr hv hf⟩

/-! ## PROVISION LAYOUT (R187) -/

theorem number_le32 {n : Nat} (h : n < 2 ^ 32) : number (le32 n) = n := by
  simp [number, le32, le16, byteOf]
  omega

theorem takeNumber_le32 {n : Nat} (h : n < 2 ^ 32) (rest : Bytes) : takeNumber 4 (le32 n ++ rest) = some (n, rest) := by
  have front : (le32 n ++ rest).take 4 = le32 n := rfl
  have back : (le32 n ++ rest).drop 4 = rest := rfl
  simp [takeNumber, takeBytes, front, back, number_le32 h]

/-- PROVISION LAYOUT carries S and R, which are taken rounded down and clamped (R187). -/
theorem readLayout_le32 {size recovery : Nat} (hs : size < 2 ^ 32) (hr : recovery < 2 ^ 32) :
    readLayout (le32 size ++ le32 recovery) = some (takenLayout size recovery) := by
  have second : takeNumber 4 (le32 recovery) = some (recovery, []) := by
    simpa only [List.append_nil] using takeNumber_le32 hr []
  simp only [readLayout, takeNumber_le32 hs, second, Option.bind_eq_bind, Option.bind_some, atEnd_nil, Option.pure_def]

/-- A heard PROVISION LAYOUT hands S and R over as they are taken, and is to be answered with them (R187). -/
theorem provisionLayout_hands {s : State} {identity : Byte} {size recovery : Nat} (hm : s.kept.lifecycle = .manufacture)
    (hs : size < 2 ^ 32) (hr : recovery < 2 ^ 32) (h : s.Hears identity (le32 size ++ le32 recovery)) :
    ∃ t, exec (.provisionLayout identity (le32 size ++ le32 recovery)) s = .next t ∧
      Hands s .provisionLayout identity (le32 size ++ le32 recovery) (.layoutPut (takenLayout size recovery))
        (.reply (le32 (takenLayout size recovery).bankSize ++ le32 (takenLayout size recovery).recoverySize)) s.biu t :=
  request_hands (serve := serveProvisionLayout) h (checkRight_factory nofun rfl hm) rfl fun u _ => by
    rw [serveProvisionLayout, readLayout_le32 hs hr, layout_some, Checked.bind_ok, Checked.pure_eq, served_ok]

/-! ## PROVISION GOLDEN (R188) -/

/-- The checks of R188 on a part with its layout written. -/
theorem Records.checkGolden_eq {r : Records} {l : Layout} (hl : r.layout = some l) (epoch : Nat) (regions : List Region) :
    r.checkGolden epoch regions =
      if regionsFit l.bankSize regions = true ∧ epoch ≤ 4095 ∧ r.counter 0 ≤ epoch then .ok () else .error .badArgument := by
  simp only [Records.checkGolden, hl, present_some, Checked.bind_ok, check_bind]
  by_cases fits : regionsFit l.bankSize regions = true <;> simp [fits, check]

/-- Set A and counter 0 are written together, and every other record is kept (R188). -/
theorem Records.goldenPut_writes {r : Records} {epoch : Nat} {regions : List Region} (h : r.checkGolden epoch regions = .ok ())
    (build : Nat) :
    (r.apply (.goldenPut epoch build regions)).counter 0 = epoch ∧
      (∀ line, line ≠ 0 → (r.apply (.goldenPut epoch build regions)).counter line = r.counter line) ∧
      r.apply (.goldenPut epoch build regions) = { r with
        goldenA := ⟨true, epoch, build, regions⟩
        counters := (r.apply (.goldenPut epoch build regions)).counters } := by
  have written : r.apply (.goldenPut epoch build regions) =
      { r.withCounter 0 epoch with goldenA := ⟨true, epoch, build, regions⟩ } := Records.apply_ok h
  rw [written]
  exact ⟨r.withCounter_same (by decide) epoch, fun line other => r.withCounter_other other epoch, rfl⟩

/-- PROVISION GOLDEN of a payload that can be read hands set A over, where the checks of R188 hold. -/
theorem serveProvisionGolden_read {payload : Bytes} {epoch build : Nat} {regions : List Region}
    (h : readGolden payload = some (epoch, build, regions)) (identity : Nat) (u : State) :
    serveProvisionGolden identity payload u = served (do
      u.kept.checkGolden epoch regions
      pure (u.handOver (.goldenPut epoch build regions) (.reply (le16 epoch)))) u := by
  rw [serveProvisionGolden, h]
  rfl

section Golden

variable {s : State} {identity : Byte} {payload : Bytes} {epoch build : Nat} {regions : List Region}
  (hm : s.kept.lifecycle = .manufacture) (h : s.Hears identity payload) (read : readGolden payload = some (epoch, build, regions))
include hm h read

theorem provisionGolden_hands (checks : s.kept.checkGolden epoch regions = .ok ()) :
    ∃ t, exec (.provisionGolden identity payload) s = .next t ∧
      Hands s .provisionGolden identity payload (.goldenPut epoch build regions) (.reply (le16 epoch)) s.biu t :=
  request_hands (serve := serveProvisionGolden) h (checkRight_factory nofun rfl hm) rfl fun u hu => by
    rw [serveProvisionGolden_read read, hu.kept, checks]
    rfl

theorem provisionGolden_refused {status : Status} (checks : s.kept.checkGolden epoch regions = .error status) :
    ∃ t, exec (.provisionGolden identity payload) s = .next t ∧ Replies s identity status [] t :=
  request_refused h serveProvisionGolden (checkRight_factory nofun rfl hm) rfl fun u hu => by
    rw [serveProvisionGolden_read read, hu.kept, checks]
    rfl

end Golden

/-! ## PROVISION CREDENTIAL (R186) -/

theorem Credential.isOwner_false {c : Credential} (h : c.credClass ≠ .owner) : c.isOwner = false := by
  unfold Credential.isOwner
  split
  · next owner => exact absurd owner h
  · rfl

/-- A well-formed credential is of one of the two kinds. -/
theorem CredForm.kind_of_wellFormed {f : CredForm} (h : f.wellFormed = true) : f.kind = some .verifier ∨ f.kind = some .secret := by
  cases kind : f.kind with
  | none => simp [CredForm.wellFormed, kind] at h
  | some k => cases k <;> simp

section Credential

variable {payload : Bytes} {f : CredForm} {u : State} {i : Nat} (read : readCredForm payload = some f) (wf : f.wellFormed = true)
  (index : u.kept.credIndex f.label false = .ok i)
include read wf index

/-- PROVISION CREDENTIAL of a SECRET hands its record over with its factory copy (R186). -/
theorem serveProvisionCredential_secret (kind : f.kind = some .secret) (identity : Nat) :
    serveProvisionCredential identity payload u =
      u.handOver (.credPut (f.record (.factory f.value false) f.value u.ism)) (.replyIndex f.label) := by
  have verifies : f.kind ≠ some .verifier := by rw [kind]; nofun
  simp only [serveProvisionCredential, read, layout_some, Checked.bind_ok, wf, check_true, index, verifies, if_false, Checked.pure_eq,
    served_ok, writeProvisioned]

/-- PROVISION CREDENTIAL of a VERIFIER digests its passphrase first (R127, R186). -/
theorem serveProvisionCredential_verifier (kind : f.kind = some .verifier) (identity : Nat) :
    serveProvisionCredential identity payload u =
      beginDigest (some u.kept.vaultKey) (f.label ++ [0] ++ f.value) (.provisioning f) u := by
  simp only [serveProvisionCredential, read, layout_some, Checked.bind_ok, wf, check_true, index, kind, if_true, Checked.pure_eq,
    served_ok, beginVerifier]

end Credential

/-- A heard PROVISION CREDENTIAL that finds the vault free and a record for its label goes on as its kind says (R145, R186). -/
theorem provisionCredential_goesOn {s : State} {identity : Byte} {payload : Bytes} {f : CredForm} {i : Nat}
    (hm : s.kept.lifecycle = .manufacture) (free : s.vault.free = true) (h : s.Hears identity payload)
    (read : readCredForm payload = some f) (wf : f.wellFormed = true) (index : s.kept.credIndex f.label false = .ok i) :
    ∃ t, exec (.provisionCredential identity payload) s = .next t ∧
      if f.kind = some .secret then
        Hands s .provisionCredential identity payload
          (.credPut (f.record (.factory f.value false) f.value s.ism)) (.replyIndex f.label) s.biu t
      else Digests s .provisionCredential identity payload (some s.kept.vaultKey) (f.label ++ [0] ++ f.value)
        (.provisioning f) s.biu t := by
  obtain ⟨u, hu, runs⟩ := request_serves_vault (code := .provisionCredential) (serve := serveProvisionCredential) h
    (checkRight_factory nofun rfl hm) rfl free
  have indexed : u.kept.credIndex f.label false = .ok i := by rw [hu.kept, index]
  refine ⟨_, runs, ?_⟩
  rcases CredForm.kind_of_wellFormed wf with kind | kind
  · rw [if_neg (by rw [kind]; nofun), serveProvisionCredential_verifier read wf indexed kind, hu.kept]
    exact hu.digests _ _ _ _
  · rw [if_pos kind, serveProvisionCredential_secret read wf indexed kind, hu.ism]
    exact hu.hands _ _ _

/-! ## LOCK FACTORY (R189) -/

theorem serveLockFactory_nil (identity : Nat) (u : State) :
    serveLockFactory identity [] u = served (do
      check u.kept.lockable .wrongState
      pure (u.handOver .lock (.reply []))) u := rfl

theorem Records.slotActive_of {r : Records} {i : Nat} {k : KeySlot} (h : r.slot i = some k) (ha : k.state = .active) :
    r.slotActive i = true := by
  simp [Records.slotActive, h, ha]

/-- A signing pair for statements, open to every identity, is the attestation pair (R189). -/
theorem Records.attestationReady_of {r : Records} {k : KeySlot} {a : Option Bytes} {b : Bytes} (h : r.slot 1 = some k)
    (pair : k.material = .pair a b) (usage : inSet k.usage useStatement = true) (answers : k.answerSet = 0xFF) (unbound : k.binding = none)
    (unlimited : k.useLimit = none) : r.attestationReady = true := by
  simp [Records.attestationReady, h, pair, KeyMaterial.kind, usage, answers, unbound, unlimited]

theorem lockFactory_hands {s : State} {identity : Byte} (hm : s.kept.lifecycle = .manufacture) (h : s.Hears identity [])
    (ready : s.kept.lockable = true) :
    ∃ t, exec (.lockFactory identity []) s = .next t ∧ Hands s .lockFactory identity [] .lock (.reply []) s.biu t :=
  request_hands (serve := serveLockFactory) h (checkRight_factory nofun rfl hm) rfl fun u hu => by
    rw [serveLockFactory_nil, hu.kept, ready]
    rfl

theorem lockFactory_refused {s : State} {identity : Byte} (hm : s.kept.lifecycle = .manufacture) (h : s.Hears identity [])
    (unready : s.kept.lockable = false) :
    ∃ t, exec (.lockFactory identity []) s = .next t ∧ Replies s identity .wrongState [] t :=
  request_refused h serveLockFactory (checkRight_factory nofun rfl hm) rfl fun u hu => by
    rw [serveLockFactory_nil, hu.kept, unready]
    rfl

/-- A part that can be locked has its layout, set A, and slots 0 and 1 (R189). -/
theorem Records.lockable_iff {r : Records} :
    r.lockable = true ↔ r.layout ≠ none ∧ r.slotActive 0 = true ∧ r.slotActive 1 = true ∧ r.attestationReady = true ∧
      r.goldenA.valid = true := by
  simp only [Records.lockable, Bool.and_eq_true, Option.isSome_iff_ne_none, and_assoc]

/-- Settles O60: each request by its service, and each write by its records. -/
theorem provisioningWritesAndLocksTheFactoryRecords : Obligations.ProvisioningWritesAndLocksTheFactoryRecords := by
  intro s identity hm
  refine ⟨fun size recovery hs hr h => ?_, fun payload epoch build regions l h read hl => ?_,
    fun payload f free h read wf found => ?_, fun h => ?_⟩
  · obtain ⟨t, runs, hands⟩ := provisionLayout_hands hm hs hr h
    exact ⟨t, takenLayout size recovery, runs, rfl, rfl, hands, rfl⟩
  · have checks := Records.checkGolden_eq hl epoch regions
    split at checks
    · next fit =>
      obtain ⟨t, runs, hands⟩ := provisionGolden_hands hm h read checks
      exact ⟨t, runs, by rw [if_pos fit]; exact ⟨hands, Records.goldenPut_writes checks build⟩⟩
    · next unfit =>
      obtain ⟨t, runs, replies⟩ := provisionGolden_refused hm h read checks
      exact ⟨t, runs, by rw [if_neg unfit]; exact replies⟩
  · obtain ⟨i, index⟩ := credIndex_factory (found.imp_right fun ⟨i, c, named, factory⟩ => ⟨i, c, named, Credential.isOwner_false factory⟩)
    exact provisionCredential_goesOn hm free h read wf index
  · cases ready : s.kept.lockable with
    | true =>
      obtain ⟨layout, first, second, attests, golden⟩ := Records.lockable_iff.1 ready
      obtain ⟨t, runs, hands⟩ := lockFactory_hands hm h ready
      refine ⟨t, runs, fun _ => ⟨hands, Records.apply_ok (by rw [Records.recheck_lock, ready]; rfl)⟩, fun missing => ?_⟩
      simp [layout, first, second, attests, golden] at missing
    | false =>
      obtain ⟨t, runs, replies⟩ := lockFactory_refused hm h ready
      refine ⟨t, runs, fun ⟨layout, golden, ⟨k, zero, active⟩, l, a, b, one, activeOne, pair, usage, answers, unbound, unlimited⟩ => ?_,
        fun _ => replies⟩
      have lockable := Records.lockable_iff.2 ⟨layout, Records.slotActive_of zero active, Records.slotActive_of one activeOne,
        Records.attestationReady_of one pair usage answers unbound unlimited, golden⟩
      rw [ready] at lockable
      cases lockable

end Sys2Proof.Machine
end

section
/-! SUPPORT. Proofs for the model's own choices about steps: every command is taken (log entry 5), and the queue is a step's alone (log
entry 27). -/

namespace Sys2Proof.Machine

/-! ## The front of the queue (log entry 27) -/

/-- Settles O16: a step by the first command of the queue. -/
theorem stepRunsTheFrontCommand : Obligations.StepRunsTheFrontCommand := by
  intro s c rest queue
  simp only [step, queue]

/-! ## Effects that no shared law covers -/

theorem failAttempt_pending (s : State) : (failAttempt s).pending = s.pending := by
  unfold failAttempt
  dsimp only
  split
  · exact (startOfMeasurement_keeps _ _).pending
  · split <;> rfl

theorem failOrReboot_pending (s : State) : (failOrReboot s).pending = s.pending := by
  unfold failOrReboot
  split
  · exact (startOfMeasurement_keeps _ _).pending
  · exact failAttempt_pending s

theorem socRestarted_pending (s : State) : (socRestarted s).pending = s.pending := by
  unfold socRestarted
  split
  · exact (startOfMeasurement_keeps _ _).pending
  · exact failOrReboot_pending s

/-- An absorption sets the mark (R45), so it is not regular; the queue is as the owner of a finished context leaves it. -/
theorem absorbNow_pending (s : State) : (absorbNow s).pending = s.pending := by
  unfold absorbNow blockAbsorbed
  split
  · dsimp only
    split
    · exact (contextDone_regular _ _).pending
    · rfl
  · rfl

/-- An item that is made changes the records, so it is not regular; its effects and what its writer goes on with leave the queue (R182). -/
theorem made_pending (item : StoreItem) (s : State) : (made item s).pending = s.pending :=
  (goOn_keeps _ _).pending.trans (completionEffects_regular _ _ _).pending

theorem completeNow_pending (s : State) : (completeNow s).pending = s.pending := by
  unfold completeNow complete
  split
  · refine (interruptStep_regular _).pending.trans ?_
    split
    · exact made_pending _ _
    · exact (goOnFailed_keeps _ _ _).pending
  · rfl

theorem failNow_pending (s : State) : (failNow s).pending = s.pending := by
  unfold failNow failItem
  split
  · exact (interruptStep_regular _).pending.trans
      ((goOnFailed_keeps _ _ _).pending.trans (failureEffects_regular _ _).pending)
  · rfl

/-- A start at power-on leaves the queue that power-on is given (R190, log entry 27). -/
theorem powerOnFrom_pending (kept : Records) (pressed : Bool) (draws : Nat) (pending : List Instr) :
    (powerOnFrom kept pressed draws pending).pending = pending := (powerOnFrom_regular _ _ _ _).pending

/-! ## Every command -/

/-- An event is taken whether or not its condition holds (log entry 5), and touches the queue only as its effect does. -/
theorem event_taken {condition : Bool} {effect : State → State} {s : State} (h : (effect s).pending = s.pending) :
    ∃ t, event condition effect s = .next t ∧ t.pending = s.pending := by
  refine ⟨_, rfl, ?_⟩
  split
  · exact h
  · rfl

theorem request_taken {serve : Nat → Bytes → State → State} (hv : ∀ i p s, Regular s (serve i p s)) {code : Req} {identity : Byte}
    {payload : Bytes} {s : State} :
    ∃ t, event true (request code serve identity payload) s = .next t ∧ t.pending = s.pending :=
  event_taken (request_regular hv code identity payload s).pending

/-- Settles O25: power and the level of BTN by their cases, the part's events by their effects, and each request by its service; the last case
is the requests that only read. -/
theorem everyCommandIsTakenAndKeepsTheQueue : Obligations.EveryCommandIsTakenAndKeepsTheQueue := by
  intro c s
  cases c with
  | powerOn landed => exact ⟨_, rfl, powerOnFrom_pending _ _ _ _⟩
  | powerLoss landed =>
    refine ⟨_, rfl, ?_⟩
    split <;> rfl
  | btnLevelChange pressed =>
    refine ⟨_, rfl, ?_⟩
    split
    · rfl
    · split <;> rfl
  | storeWriteComplete => exact event_taken (completeNow_pending s)
  | storeWriteFailed => exact event_taken (failNow_pending s)
  | bankSelection => exact event_taken (selectNow_regular s).pending
  | attachDeadlineExpiry | bootCompleteDeadlineExpiry => exact event_taken (failOrReboot_pending s)
  | holdDwellExpiry | rebootTimerExpiry => exact event_taken (startOfMeasurement_keeps _ _).pending
  | socRestart => exact event_taken (socRestarted_pending s)
  | silenceWatchExpiry => exact event_taken (silenceExpired_regular s).pending
  | scanTimerExpiry => exact event_taken (scanExpiry_regular s).pending
  | deBlockAbsorbed => exact event_taken (absorbNow_pending s)
  | frBurstStart => exact event_taken (startBurst_pending s)
  | frBurstComplete bytes => exact event_taken (burstRead_regular _ _).pending
  | seOperationComplete => exact event_taken (engineDone_regular s).pending
  | keyMaterialGenerated => exact event_taken (materialGenerated_regular s).pending
  | verificationDeadlineExpiry => exact event_taken (reject_regular _ _).pending
  | socFlashCommand command => exact event_taken (socCommand_regular _ _).pending
  | linkTransactionIgnored received => exact event_taken (ignore_regular _ _ _).pending
  | badFrame frame => exact event_taken (frameArrives_regular (receiveBad_regular frame) _ _).pending
  | frameTimeout received elapsed => exact event_taken (timeOut_regular _ _).pending
  | overrun frame => exact event_taken (overrunFrame_regular _ _ _).pending
  | poll clocked => exact event_taken (poll_regular _ _ _).pending
  | debouncedRelease => exact event_taken (debouncedRelease_regular s).pending
  | buttonHold => exact event_taken (buttonHeld_regular s).pending
  | storeWriteStart | socFlashForward | socFlashCsRise | debouncedPress | presenceWindowTimeout | patternPeriodEnd | onTimeEnd
  | ownerResetUpdate | decayStep => exact event_taken rfl
  | clearAttention => exact request_taken serveClearAttention_regular
  | setAlertMask => exact request_taken serveSetAlertMask_regular
  | setParameter => exact request_taken serveSetParameter_regular
  | keyGenerate => exact request_taken serveKeyGenerate_regular
  | keyImport => exact request_taken serveKeyImport_regular
  | keySign => exact request_taken serveKeySign_regular
  | keyDerive => exact request_taken serveKeyDerive_regular
  | keyRestrict => exact request_taken serveKeyRestrict_regular
  | keyRetire => exact request_taken serveKeyRetire_regular
  | keyErase => exact request_taken serveKeyErase_regular
  | blobWrite => exact request_taken serveBlobWrite_regular
  | extendDigest => exact request_taken serveExtendDigest_regular
  | extendData => exact request_taken serveExtendData_regular
  | advanceStage => exact request_taken serveAdvanceStage_regular
  | requesterWrite => exact request_taken serveRequesterWrite_regular
  | makeStatement => exact request_taken serveMakeStatement_regular
  | verifyStaged => exact request_taken serveVerifyStaged_regular
  | abortImage => exact request_taken serveAbortImage_regular
  | armTrial => exact request_taken serveArmTrial_regular
  | confirmImage => exact request_taken serveConfirmImage_regular
  | rebootRouter => exact request_taken serveRebootRouter_regular
  | vaultClaim => exact request_taken serveVaultClaim_regular
  | credEnroll => exact request_taken serveCredEnroll_regular
  | credCheck => exact request_taken serveCredCheck_regular
  | credChange => exact request_taken serveCredChange_regular
  | credRemove => exact request_taken serveCredRemove_regular
  | ownerReset => exact request_taken serveOwnerReset_regular
  | setIndicatorPattern | setIndicatorClear => exact request_taken serveSetIndicator_regular
  | reactionWrite => exact request_taken serveReactionWrite_regular
  | patternWrite => exact request_taken servePatternWrite_regular
  | provisionSlotGenerate | provisionSlotPublic | provisionSlotBlob | provisionSlotErase =>
    exact request_taken serveProvisionSlot_regular
  | provisionCredential => exact request_taken serveProvisionCredential_regular
  | provisionLayout => exact request_taken serveProvisionLayout_regular
  | provisionGolden => exact request_taken serveProvisionGolden_regular
  | lockFactory => exact request_taken serveLockFactory_regular
  | _ => exact request_taken fun _ _ _ => answered_regular _ _

end Sys2Proof.Machine
end
